-- ==== Sys2Proof/Word.lean ====
section
/-! DEFINITION. The word types of the machine (spec 00_scope.md R22, R23) and their plainest arithmetic. -/

namespace Sys2Proof

/-- A register, address or datum: 64 bits (00_scope.md R23). -/
abbrev Word := BitVec 64

/-- One byte of memory. -/
abbrev Byte := BitVec 8

/-- A general register's number, 0 to 31 (30_encoding.md R161). -/
abbrev RegIdx := BitVec 5

/-- A CSR's number, 0 to 4095 (30_encoding.md R169). -/
abbrev CsrNum := BitVec 12

/-- `sext_32(v)`: the low 32 bits of `v`, sign-extended (00_scope.md R23). -/
def sext32 (v : Word) : Word := (v.setWidth 32).signExtend 64

/-- `c ? 1 : 0` as a register value (43_integer_ops.md R292). -/
def boolWord (c : Bool) : Word := if c then 1 else 0

end Sys2Proof
end

