-- ==== Sys2Proof/Config.lean ====
section
/-! DEFINITION. The parameters of the CORE (spec 00_scope.md R19 to R21) and the one free value.
The machine holds a `Config` in its State as data that no step changes (notes/assumptions/1.md), so a
statement about every state is a statement about every parameter set. -/

namespace Sys2Proof

/-- `INTR_EPC`: the pc saved for an interrupt (00_scope.md R20, 60_exceptions.md R460). -/
inductive InterruptEpc where
  | pcMinus4
  | pc
  deriving DecidableEq, Repr

/-- A half-open window of physical addresses, `[base, base + size)` (20_memory.md R105). -/
structure Window where
  base : Nat
  size : Nat
  deriving DecidableEq, Repr

/-- The first address past the window. -/
def Window.stop (w : Window) : Nat := w.base + w.size

/-- `base <= a < base + size`, unsigned (20_memory.md R105). -/
def Window.contains (w : Window) (a : Nat) : Bool := decide (w.base ≤ a) && decide (a < w.stop)

/-- No address lies in both windows. -/
def Window.disjoint (v w : Window) : Bool :=
  decide (v.size = 0) || decide (w.size = 0) || decide (v.stop ≤ w.base) || decide (w.stop ≤ v.base)

/-- The open parameters of 00_scope.md R20, and `RESET_GPR_ZERO` of 10_state.md R42. -/
structure Config where
  pageSize         : Nat
  clint            : Window
  plic             : Window
  uart             : Window
  virtio           : Window
  dramBase         : Nat
  dramSize         : Nat
  diskSize         : Nat
  uartIrq          : BitVec 32
  virtioIrq        : BitVec 32
  virtioNotifyIdle : BitVec 32
  hasM             : Bool
  intrEpc          : InterruptEpc
  resetGprZero     : Bool
  deriving DecidableEq, Repr

/-- The reference configuration (00_scope.md R20). No disk image has been supplied, so
`DISK_SIZE` is 0 (notes/assumptions/5.md). -/
def Config.reference : Config where
  pageSize := 4096
  clint    := { base := 0x02000000, size := 0x10000 }
  plic     := { base := 0x0C000000, size := 0x04000000 }
  uart     := { base := 0x10000000, size := 0x100 }
  virtio   := { base := 0x10001000, size := 0x1000 }
  dramBase := 0x80000000
  dramSize := 0x08000000
  diskSize := 0
  uartIrq := 10
  virtioIrq := 1
  virtioNotifyIdle := 9999
  hasM := true
  intrEpc := .pcMinus4
  resetGprZero := true

/-- The constraints of 00_scope.md R21: the four device windows are pairwise disjoint, each ends at
or below `DRAM_BASE`, and `DRAM_BASE + DRAM_SIZE <= 2^64`. -/
def Config.admissible (c : Config) : Bool :=
  c.clint.disjoint c.plic && c.clint.disjoint c.uart && c.clint.disjoint c.virtio &&
  c.plic.disjoint c.uart && c.plic.disjoint c.virtio && c.uart.disjoint c.virtio &&
  decide (c.clint.stop ≤ c.dramBase) && decide (c.plic.stop ≤ c.dramBase) &&
  decide (c.uart.stop ≤ c.dramBase) && decide (c.virtio.stop ≤ c.dramBase) &&
  decide (c.dramBase + c.dramSize ≤ 2 ^ 64)

/-- What `x1` and `x3` to `x31` hold at reset with `RESET_GPR_ZERO = false`: a FREE VALUE, nothing is
known of it (10_state.md R42, 93_implementation_defined.md Part 1 item 12; notes/assumptions/2.md). -/
opaque Config.unspecifiedGpr : Nat → Word

end Sys2Proof
end

