-- ==== Sys2Proof/Syntax.lean ====
section
/-! DEFINITION. The instructions: one constructor for each of the 98 rows of spec/opcode_table.json. Immediates and
offsets are the encoded numbers themselves; the meanings sign-extend them (30_encoding.md R163 to R171). -/

namespace Sys2Proof

/-- An instruction (30_encoding.md R172 to R182). -/
inductive Instr where
  -- 41_control.md
  /-- LUI (R232); `imm` is w[31:12] -/
  | lui (rd : RegIdx) (imm : BitVec 20)
  /-- AUIPC (R233) -/
  | auipc (rd : RegIdx) (imm : BitVec 20)
  /-- JAL (R234); `off` is the byte offset, bit 0 is 0 -/
  | jal (rd : RegIdx) (off : BitVec 21)
  /-- JALR (R235) -/
  | jalr (rd rs1 : RegIdx) (imm : BitVec 12)
  /-- BEQ (R237); `off` is the byte offset, bit 0 is 0 -/
  | beq (rs1 rs2 : RegIdx) (off : BitVec 13)
  /-- BNE (R238); `off` is the byte offset, bit 0 is 0 -/
  | bne (rs1 rs2 : RegIdx) (off : BitVec 13)
  /-- BLT (R239); `off` is the byte offset, bit 0 is 0 -/
  | blt (rs1 rs2 : RegIdx) (off : BitVec 13)
  /-- BGE (R240); `off` is the byte offset, bit 0 is 0 -/
  | bge (rs1 rs2 : RegIdx) (off : BitVec 13)
  /-- BLTU (R241); `off` is the byte offset, bit 0 is 0 -/
  | bltu (rs1 rs2 : RegIdx) (off : BitVec 13)
  /-- BGEU (R242); `off` is the byte offset, bit 0 is 0 -/
  | bgeu (rs1 rs2 : RegIdx) (off : BitVec 13)
  -- 42_loads_stores.md
  /-- LB (R261) -/
  | lb (rd rs1 : RegIdx) (imm : BitVec 12)
  /-- LH (R262) -/
  | lh (rd rs1 : RegIdx) (imm : BitVec 12)
  /-- LW (R263) -/
  | lw (rd rs1 : RegIdx) (imm : BitVec 12)
  /-- LD (R264) -/
  | ld (rd rs1 : RegIdx) (imm : BitVec 12)
  /-- LBU (R265) -/
  | lbu (rd rs1 : RegIdx) (imm : BitVec 12)
  /-- LHU (R266) -/
  | lhu (rd rs1 : RegIdx) (imm : BitVec 12)
  /-- LWU (R267) -/
  | lwu (rd rs1 : RegIdx) (imm : BitVec 12)
  /-- SB (R269) -/
  | sb (rs1 rs2 : RegIdx) (imm : BitVec 12)
  /-- SH (R270) -/
  | sh (rs1 rs2 : RegIdx) (imm : BitVec 12)
  /-- SW (R271) -/
  | sw (rs1 rs2 : RegIdx) (imm : BitVec 12)
  /-- SD (R272) -/
  | sd (rs1 rs2 : RegIdx) (imm : BitVec 12)
  -- 43_integer_ops.md
  /-- ADDI (R291) -/
  | addi (rd rs1 : RegIdx) (imm : BitVec 12)
  /-- SLTI (R292) -/
  | slti (rd rs1 : RegIdx) (imm : BitVec 12)
  /-- SLTIU (R293) -/
  | sltiu (rd rs1 : RegIdx) (imm : BitVec 12)
  /-- XORI (R294) -/
  | xori (rd rs1 : RegIdx) (imm : BitVec 12)
  /-- ORI (R295) -/
  | ori (rd rs1 : RegIdx) (imm : BitVec 12)
  /-- ANDI (R296) -/
  | andi (rd rs1 : RegIdx) (imm : BitVec 12)
  /-- SLLI (R297) -/
  | slli (rd rs1 : RegIdx) (shamt : BitVec 6)
  /-- SRLI (R298) -/
  | srli (rd rs1 : RegIdx) (shamt : BitVec 6)
  /-- SRAI (R299) -/
  | srai (rd rs1 : RegIdx) (shamt : BitVec 6)
  /-- ADD (R300) -/
  | add (rd rs1 rs2 : RegIdx)
  /-- SUB (R301) -/
  | sub (rd rs1 rs2 : RegIdx)
  /-- SLL (R302) -/
  | sll (rd rs1 rs2 : RegIdx)
  /-- SLT (R303) -/
  | slt (rd rs1 rs2 : RegIdx)
  /-- SLTU (R304) -/
  | sltu (rd rs1 rs2 : RegIdx)
  /-- XOR (R305) -/
  | xor (rd rs1 rs2 : RegIdx)
  /-- SRL (R306) -/
  | srl (rd rs1 rs2 : RegIdx)
  /-- SRA (R307) -/
  | sra (rd rs1 rs2 : RegIdx)
  /-- OR (R308) -/
  | or (rd rs1 rs2 : RegIdx)
  /-- AND (R309) -/
  | and (rd rs1 rs2 : RegIdx)
  -- 44_word_ops.md
  /-- ADDIW (R331) -/
  | addiw (rd rs1 : RegIdx) (imm : BitVec 12)
  /-- SLLIW (R332) -/
  | slliw (rd rs1 : RegIdx) (shamt : BitVec 5)
  /-- SRLIW (R333) -/
  | srliw (rd rs1 : RegIdx) (shamt : BitVec 5)
  /-- SRAIW (R334) -/
  | sraiw (rd rs1 : RegIdx) (shamt : BitVec 5)
  /-- ADDW (R335) -/
  | addw (rd rs1 rs2 : RegIdx)
  /-- SUBW (R336) -/
  | subw (rd rs1 rs2 : RegIdx)
  /-- SLLW (R337) -/
  | sllw (rd rs1 rs2 : RegIdx)
  /-- SRLW (R338) -/
  | srlw (rd rs1 rs2 : RegIdx)
  /-- SRAW (R339) -/
  | sraw (rd rs1 rs2 : RegIdx)
  -- 45_muldiv.md
  /-- MUL (R352) -/
  | mul (rd rs1 rs2 : RegIdx)
  /-- MULH (R353) -/
  | mulh (rd rs1 rs2 : RegIdx)
  /-- MULHSU (R354) -/
  | mulhsu (rd rs1 rs2 : RegIdx)
  /-- MULHU (R355) -/
  | mulhu (rd rs1 rs2 : RegIdx)
  /-- DIV (R356) -/
  | div (rd rs1 rs2 : RegIdx)
  /-- DIVU (R357) -/
  | divu (rd rs1 rs2 : RegIdx)
  /-- REM (R358) -/
  | rem (rd rs1 rs2 : RegIdx)
  /-- REMU (R359) -/
  | remu (rd rs1 rs2 : RegIdx)
  /-- MULW (R360) -/
  | mulw (rd rs1 rs2 : RegIdx)
  /-- DIVW (R361) -/
  | divw (rd rs1 rs2 : RegIdx)
  /-- DIVUW (R362) -/
  | divuw (rd rs1 rs2 : RegIdx)
  /-- REMW (R363) -/
  | remw (rd rs1 rs2 : RegIdx)
  /-- REMUW (R364) -/
  | remuw (rd rs1 rs2 : RegIdx)
  -- 46_system.md; the fields the decoder ignores (30_encoding.md R184) are kept
  /-- FENCE (R370) -/
  | fence (fm pred succ : BitVec 4) (rs1 rd : RegIdx)
  /-- FENCE.I (R371) -/
  | fenceI (imm : BitVec 12) (rs1 rd : RegIdx)
  /-- ECALL (R372) -/
  | ecall (rs1 rd : RegIdx)
  /-- EBREAK (R373) -/
  | ebreak (rs1 rd : RegIdx)
  /-- SRET (R376) -/
  | sret (rs1 rd : RegIdx)
  /-- MRET (R377) -/
  | mret (rs1 rd : RegIdx)
  /-- WFI (R374) -/
  | wfi (rs1 rd : RegIdx)
  /-- SFENCE.VMA (R375) -/
  | sfenceVma (rs1 rs2 rd : RegIdx)
  -- 47_csr.md
  /-- CSRRW (R391) -/
  | csrrw (rd rs1 : RegIdx) (csr : CsrNum)
  /-- CSRRS (R392) -/
  | csrrs (rd rs1 : RegIdx) (csr : CsrNum)
  /-- CSRRC (R393) -/
  | csrrc (rd rs1 : RegIdx) (csr : CsrNum)
  /-- CSRRWI (R394) -/
  | csrrwi (rd : RegIdx) (uimm : BitVec 5) (csr : CsrNum)
  /-- CSRRSI (R395) -/
  | csrrsi (rd : RegIdx) (uimm : BitVec 5) (csr : CsrNum)
  /-- CSRRCI (R396) -/
  | csrrci (rd : RegIdx) (uimm : BitVec 5) (csr : CsrNum)
  -- 48_atomic.md; `aq` and `rl` are decoded and ignored (R421)
  /-- LR.W (R415) -/
  | lrW (rd rs1 : RegIdx) (aq rl : Bool)
  /-- LR.D (R416) -/
  | lrD (rd rs1 : RegIdx) (aq rl : Bool)
  /-- SC.W (R417) -/
  | scW (rd rs1 rs2 : RegIdx) (aq rl : Bool)
  /-- SC.D (R418) -/
  | scD (rd rs1 rs2 : RegIdx) (aq rl : Bool)
  /-- AMOSWAP.W (R422) -/
  | amoswapW (rd rs1 rs2 : RegIdx) (aq rl : Bool)
  /-- AMOADD.W (R423) -/
  | amoaddW (rd rs1 rs2 : RegIdx) (aq rl : Bool)
  /-- AMOXOR.W (R424) -/
  | amoxorW (rd rs1 rs2 : RegIdx) (aq rl : Bool)
  /-- AMOAND.W (R425) -/
  | amoandW (rd rs1 rs2 : RegIdx) (aq rl : Bool)
  /-- AMOOR.W (R426) -/
  | amoorW (rd rs1 rs2 : RegIdx) (aq rl : Bool)
  /-- AMOMIN.W (R427) -/
  | amominW (rd rs1 rs2 : RegIdx) (aq rl : Bool)
  /-- AMOMAX.W (R428) -/
  | amomaxW (rd rs1 rs2 : RegIdx) (aq rl : Bool)
  /-- AMOMINU.W (R429) -/
  | amominuW (rd rs1 rs2 : RegIdx) (aq rl : Bool)
  /-- AMOMAXU.W (R430) -/
  | amomaxuW (rd rs1 rs2 : RegIdx) (aq rl : Bool)
  /-- AMOSWAP.D (R431) -/
  | amoswapD (rd rs1 rs2 : RegIdx) (aq rl : Bool)
  /-- AMOADD.D (R432) -/
  | amoaddD (rd rs1 rs2 : RegIdx) (aq rl : Bool)
  /-- AMOXOR.D (R433) -/
  | amoxorD (rd rs1 rs2 : RegIdx) (aq rl : Bool)
  /-- AMOAND.D (R434) -/
  | amoandD (rd rs1 rs2 : RegIdx) (aq rl : Bool)
  /-- AMOOR.D (R435) -/
  | amoorD (rd rs1 rs2 : RegIdx) (aq rl : Bool)
  /-- AMOMIN.D (R436) -/
  | amominD (rd rs1 rs2 : RegIdx) (aq rl : Bool)
  /-- AMOMAX.D (R437) -/
  | amomaxD (rd rs1 rs2 : RegIdx) (aq rl : Bool)
  /-- AMOMINU.D (R438) -/
  | amominuD (rd rs1 rs2 : RegIdx) (aq rl : Bool)
  /-- AMOMAXU.D (R439) -/
  | amomaxuD (rd rs1 rs2 : RegIdx) (aq rl : Bool)
  deriving DecidableEq, Repr

/-- The 13 instructions of RV64M, present when `HAS_M` (45_muldiv.md R350). -/
def Instr.isMulDiv : Instr → Bool
  | .mul _ _ _ => true
  | .mulh _ _ _ => true
  | .mulhsu _ _ _ => true
  | .mulhu _ _ _ => true
  | .div _ _ _ => true
  | .divu _ _ _ => true
  | .rem _ _ _ => true
  | .remu _ _ _ => true
  | .mulw _ _ _ => true
  | .divw _ _ _ => true
  | .divuw _ _ _ => true
  | .remw _ _ _ => true
  | .remuw _ _ _ => true
  | .lui _ _ => false
  | .auipc _ _ => false
  | .jal _ _ => false
  | .jalr _ _ _ => false
  | .beq _ _ _ => false
  | .bne _ _ _ => false
  | .blt _ _ _ => false
  | .bge _ _ _ => false
  | .bltu _ _ _ => false
  | .bgeu _ _ _ => false
  | .lb _ _ _ => false
  | .lh _ _ _ => false
  | .lw _ _ _ => false
  | .ld _ _ _ => false
  | .lbu _ _ _ => false
  | .lhu _ _ _ => false
  | .lwu _ _ _ => false
  | .sb _ _ _ => false
  | .sh _ _ _ => false
  | .sw _ _ _ => false
  | .sd _ _ _ => false
  | .addi _ _ _ => false
  | .slti _ _ _ => false
  | .sltiu _ _ _ => false
  | .xori _ _ _ => false
  | .ori _ _ _ => false
  | .andi _ _ _ => false
  | .slli _ _ _ => false
  | .srli _ _ _ => false
  | .srai _ _ _ => false
  | .add _ _ _ => false
  | .sub _ _ _ => false
  | .sll _ _ _ => false
  | .slt _ _ _ => false
  | .sltu _ _ _ => false
  | .xor _ _ _ => false
  | .srl _ _ _ => false
  | .sra _ _ _ => false
  | .or _ _ _ => false
  | .and _ _ _ => false
  | .addiw _ _ _ => false
  | .slliw _ _ _ => false
  | .srliw _ _ _ => false
  | .sraiw _ _ _ => false
  | .addw _ _ _ => false
  | .subw _ _ _ => false
  | .sllw _ _ _ => false
  | .srlw _ _ _ => false
  | .sraw _ _ _ => false
  | .fence _ _ _ _ _ => false
  | .fenceI _ _ _ => false
  | .ecall _ _ => false
  | .ebreak _ _ => false
  | .sret _ _ => false
  | .mret _ _ => false
  | .wfi _ _ => false
  | .sfenceVma _ _ _ => false
  | .csrrw _ _ _ => false
  | .csrrs _ _ _ => false
  | .csrrc _ _ _ => false
  | .csrrwi _ _ _ => false
  | .csrrsi _ _ _ => false
  | .csrrci _ _ _ => false
  | .lrW _ _ _ _ => false
  | .lrD _ _ _ _ => false
  | .scW _ _ _ _ _ => false
  | .scD _ _ _ _ _ => false
  | .amoswapW _ _ _ _ _ => false
  | .amoaddW _ _ _ _ _ => false
  | .amoxorW _ _ _ _ _ => false
  | .amoandW _ _ _ _ _ => false
  | .amoorW _ _ _ _ _ => false
  | .amominW _ _ _ _ _ => false
  | .amomaxW _ _ _ _ _ => false
  | .amominuW _ _ _ _ _ => false
  | .amomaxuW _ _ _ _ _ => false
  | .amoswapD _ _ _ _ _ => false
  | .amoaddD _ _ _ _ _ => false
  | .amoxorD _ _ _ _ _ => false
  | .amoandD _ _ _ _ _ => false
  | .amoorD _ _ _ _ _ => false
  | .amominD _ _ _ _ _ => false
  | .amomaxD _ _ _ _ _ => false
  | .amominuD _ _ _ _ _ => false
  | .amomaxuD _ _ _ _ _ => false

end Sys2Proof
end

