-- ==== Sys2Proof/Machine/State.lean ====
section
/-! DEFINITION. The state of the CORE as plain data (spec 10_state.md), the machine right after reset, the reasons a
step can stop, and the names of modes, exceptions and interrupts. -/

namespace Sys2Proof.Machine

/-- The privilege modes (10_state.md R44, 60_exceptions.md R470). -/
inductive Mode where
  | user
  | supervisor
  | machine
  deriving DecidableEq, Repr

/-- What an access is for (00_scope.md R25, 20_memory.md R111). -/
inductive AccessKind where
  | fetch
  | load
  | store
  deriving DecidableEq, Repr

/-- The size of one bus access: 1, 2, 4 or 8 bytes (20_memory.md R103). -/
inductive Width where
  | byte
  | half
  | word
  | double
  deriving DecidableEq, Repr

/-- The exceptions (60_exceptions.md R454). -/
inductive Exc where
  | instructionAddressMisaligned
  | instructionAccessFault
  | illegalInstruction
  | breakpoint
  | loadAddressMisaligned
  | loadAccessFault
  | storeAmoAddressMisaligned
  | storeAmoAccessFault
  | environmentCallFromU
  | environmentCallFromS
  | environmentCallFromM
  | instructionPageFault
  | loadPageFault
  | storeAmoPageFault
  deriving DecidableEq, Repr

/-- The interrupts that can be taken (60_exceptions.md R452). -/
inductive Interrupt where
  | supervisorSoftware
  | machineSoftware
  | supervisorTimer
  | machineTimer
  | supervisorExternal
  | machineExternal
  deriving DecidableEq, Repr

/-- What trap entry delivers: an exception or an interrupt (60_exceptions.md R460). -/
inductive Trap where
  | exc (e : Exc)
  | int (i : Interrupt)
  deriving DecidableEq, Repr

/-- The timer unit's two registers (10_state.md R63, 60_exceptions.md R500). -/
structure Clint where
  mtime    : Word
  mtimecmp : Word
  deriving DecidableEq, Repr

/-- The interrupt controller's four registers (10_state.md R64, 60_exceptions.md R510). -/
structure Plic where
  pending   : BitVec 32
  senable   : BitVec 32
  spriority : BitVec 32
  sclaim    : BitVec 32
  deriving DecidableEq, Repr

/-- The console (10_state.md R65): the byte register file `uart_reg`, as the list of its nonzero bytes by offset, and
the interrupt flag `uart_intr`. -/
structure Uart where
  regs : List Host.Cell
  intr : Bool
  deriving DecidableEq, Repr

/-- The block device's registers (10_state.md R66, 60_exceptions.md R535). -/
structure Virtio where
  driverFeatures : BitVec 32
  guestPageSize  : BitVec 32
  queueSel       : BitVec 32
  queueNum       : BitVec 32
  queuePfn       : BitVec 32
  queueNotify    : BitVec 32
  status         : BitVec 32
  vioId          : Word
  deriving DecidableEq, Repr

/-- The machine. Byte stores and the CSR bank are lists of (key, value) with strictly rising keys and no entry equal to
what an unlisted key reads as, which is 0 (notes/assumptions/4.md). -/
structure State where
  /-- The parameters; no step changes them (00_scope.md R20; the model's own field, notes/assumptions/1.md). -/
  cfg     : Config
  /-- The general registers; slot 0 is never read (10_state.md R40, R41). -/
  x       : Vector Word 32
  /-- Which registers hold a value since reset (10_state.md R42; the model's own field, notes/assumptions/11.md). -/
  written : Vector Bool 32
  /-- The program counter (10_state.md R43). -/
  pc      : Word
  /-- The privilege mode (10_state.md R44). -/
  mode    : Mode
  /-- The CSR bank, by number (10_state.md R45). -/
  csr     : List (Nat × Word)
  /-- The paging flag (10_state.md R56). -/
  paging  : Bool
  /-- `pt_root` (10_state.md R56). -/
  ptRoot  : Word
  /-- The load reservation: none or a physical address (10_state.md R58). -/
  resv    : Option Word
  /-- A fatal cause has been delivered (10_state.md R59). -/
  halted  : Bool
  /-- DRAM, by physical address (10_state.md R62). -/
  mem     : List Host.Cell
  clint   : Clint
  plic    : Plic
  uart    : Uart
  virtio  : Virtio
  /-- The disk buffer, by offset (10_state.md R66). -/
  disk    : List Host.Cell
  /-- The bytes the console has emitted, in order (10_state.md R67). -/
  out     : List Byte
  /-- The console input still to come (60_exceptions.md R531, 70_reset_and_hazards.md R581; the model's own field,
  notes/assumptions/6.md). One entry for each point where the host may act: `none` is no byte there. -/
  input   : List (Option Byte)
  deriving DecidableEq, Repr

/-- Why the machine stops without a next state: the spec's model faults (40_fetch_and_step.md R209,
93_implementation_defined.md Part 1) and its final state. -/
inductive Fault where
  /-- Raised by `step` from a halted state: the run has ended and no step is taken (40_fetch_and_step.md R206). Safe. -/
  | halted
  /-- Raised by MRET with `mstatus.MPP = 2`: the spec makes it a model fault (46_system.md R377). Safe. -/
  | mretReservedMode
  /-- Raised by `executeWord` where an instruction comes to read a register nothing has written since reset, only with
  `RESET_GPR_ZERO = false`: the spec makes it a model fault (10_state.md R42, 40_fetch_and_step.md R209,
  93_implementation_defined.md Part 1 item 4). Safe. -/
  | unwrittenRegister
  /-- Raised by a disk transfer whose range passes the end of the disk (60_exceptions.md R547); carries the state the
  machine stopped in. Safe. -/
  | virtioRange (stopped : State)
  /-- Raised by a disk transfer one of whose bus accesses faults (60_exceptions.md R547); carries the state the machine
  stopped in, with the effects made before. Safe. -/
  | virtioBus (stopped : State)
  deriving DecidableEq, Repr

/-- What the model does not admit. -/
inductive Refusal where
  /-- Raised by an arm of `exec` for an instruction without a meaning yet; none is left. Safe. -/
  | notModelled (mnemonic : String)
  /-- Raised by `step` for parameters that break 00_scope.md R21. Safe. -/
  | inadmissibleParameters
  /-- Raised by `State.load` for a guest image longer than `DRAM_SIZE` (70_reset_and_hazards.md R565). Safe. -/
  | imageTooLong
  deriving DecidableEq, Repr

/-- The answer of an instruction, of a phase and of a step. -/
abbrev Result := Host.Outcome State Fault Refusal

/-- The stack pointer at reset, `DRAM_BASE + DRAM_SIZE` (10_state.md R42, 70_reset_and_hazards.md R561). -/
def resetSp (c : Config) : Word := BitVec.ofNat 64 (c.dramBase + c.dramSize)

/-- The general registers at reset (10_state.md R42): `x2` is the top of DRAM, `x0` is 0, the others are 0 with
`RESET_GPR_ZERO` and unspecified without (notes/assumptions/2.md). -/
def resetRegs (c : Config) : Vector Word 32 :=
  let others := if c.resetGprZero then Vector.replicate 32 0#64
    else (Vector.ofFn fun i => Config.unspecifiedGpr i.val).set 0 0#64
  others.set 2 (resetSp c)

/-- The machine right after reset with parameters `c` and before the loader (10_state.md R68). -/
def State.resetWith (c : Config) : State where
  cfg     := c
  x       := resetRegs c
  written := ((Vector.replicate 32 false).set 0 true).set 2 true
  pc      := BitVec.ofNat 64 c.dramBase
  mode    := .machine
  csr     := []
  paging  := false
  ptRoot  := 0
  resv    := none
  halted  := false
  mem     := []
  clint   := { mtime := 0, mtimecmp := 0 }
  plic    := { pending := 0, senable := 0, spriority := 0, sclaim := 0 }
  uart    := { regs := [(5, 0x20)], intr := false }
  virtio  := { driverFeatures := 0, guestPageSize := 0, queueSel := 0, queueNum := 0, queuePfn := 0,
               queueNotify := c.virtioNotifyIdle, status := 0, vioId := 0 }
  disk    := []
  out     := []
  input   := []

/-- The machine right after reset in the reference configuration (10_state.md R68). -/
def State.reset : State := State.resetWith Config.reference

end Sys2Proof.Machine
end

