-- ==== Sys2Proof/Machine/Flags.lean ====
section
/-! DEFINITION. The fields of the status, pending and translation words. The machine has no arithmetic flags (spec
10_state.md R60); what stands for a status register are `mstatus`, `sstatus`, `mie`, `mip` and `satp`. -/

namespace Sys2Proof.Machine

/-- `w` with bit `i` set to `b`. -/
def setBit (w : Word) (i : Nat) (b : Bool) : Word :=
  if b then w ||| (1#64 <<< i) else w &&& ~~~(1#64 <<< i)

/-- The encoding of a mode in MPP (10_state.md R44, 60_exceptions.md R470). -/
def Mode.bits : Mode → BitVec 2
  | .user => 0
  | .supervisor => 1
  | .machine => 3

/-- The mode an MPP value names; 2 is no mode (60_exceptions.md R470). -/
def Mode.ofBits (b : BitVec 2) : Option Mode :=
  match b.toNat with
  | 0 => some .user
  | 1 => some .supervisor
  | 3 => some .machine
  | _ => none

/-- `mstatus.MIE` (10_state.md R49). -/
def mieBit (st : Word) : Bool := st.getLsbD 3
/-- `mstatus.MPIE`. -/
def mpieBit (st : Word) : Bool := st.getLsbD 7
/-- `mstatus.MPP`. -/
def mppBits (st : Word) : BitVec 2 := st.extractLsb' 11 2
/-- `sstatus.SIE`. -/
def sieBit (st : Word) : Bool := st.getLsbD 1
/-- `sstatus.SPIE`. -/
def spieBit (st : Word) : Bool := st.getLsbD 5
/-- `sstatus.SPP`. -/
def sppBit (st : Word) : Bool := st.getLsbD 8

/-- `st[12:11] <- m`. -/
def setMpp (st : Word) (m : BitVec 2) : Word := setBit (setBit st 11 (m.getLsbD 0)) 12 (m.getLsbD 1)

/-- `mstatus` on entry to M from `prev`: MPIE <- MIE, MIE <- 0, MPP <- prev (60_exceptions.md R462). -/
def mstatusOnEntry (st : Word) (prev : Mode) : Word :=
  setMpp (setBit (setBit st 7 (mieBit st)) 3 false) prev.bits

/-- `sstatus` on entry to S from `prev`: SPIE <- SIE, SIE <- 0, SPP <- prev is S (60_exceptions.md R462). -/
def sstatusOnEntry (st : Word) (prev : Mode) : Word :=
  setBit (setBit (setBit st 5 (sieBit st)) 1 false) 8 (prev == .supervisor)

/-- `mstatus` after MRET: MIE <- MPIE, MPIE <- 1, MPP <- User (46_system.md R377). -/
def mstatusOnReturn (st : Word) : Word :=
  setMpp (setBit (setBit st 3 (mpieBit st)) 7 true) 0

/-- `sstatus` after SRET: SIE <- SPIE, SPIE <- 1, SPP <- User (46_system.md R376). -/
def sstatusOnReturn (st : Word) : Word :=
  setBit (setBit (setBit st 1 (spieBit st)) 5 true) 8 false

/-- The mode SRET returns to (46_system.md R376). -/
def sretMode (st : Word) : Mode := if sppBit st then .supervisor else .user

/-- `MTIP_COND`: `mtime >= mtimecmp`, unsigned (60_exceptions.md R503). -/
def Clint.mtipCond (c : Clint) : Bool := decide (c.mtimecmp.toNat ≤ c.mtime.toNat)

/-- `mip_eff`: the stored `mip` with the timer condition in bit 7 (10_state.md R54). -/
def effectivePending (mip : Word) (c : Clint) : Word := mip ||| (if c.mtipCond then 1#64 <<< 7 else 0)

/-- The paging flag a `satp` value gives: MODE is Sv39 (10_state.md R56). -/
def satpPaging (v : Word) : Bool := v.extractLsb' 60 4 == 8#4

/-- The root a `satp` value gives: the low 44 bits times the page size (10_state.md R56). -/
def satpRoot (c : Config) (v : Word) : Word := BitVec.ofNat 64 ((v.extractLsb' 0 44).toNat * c.pageSize)

/-- An exception's code (60_exceptions.md R454). -/
def Exc.code : Exc → Nat
  | .instructionAddressMisaligned => 0
  | .instructionAccessFault => 1
  | .illegalInstruction => 2
  | .breakpoint => 3
  | .loadAddressMisaligned => 4
  | .loadAccessFault => 5
  | .storeAmoAddressMisaligned => 6
  | .storeAmoAccessFault => 7
  | .environmentCallFromU => 8
  | .environmentCallFromS => 9
  | .environmentCallFromM => 11
  | .instructionPageFault => 12
  | .loadPageFault => 13
  | .storeAmoPageFault => 15

/-- The fatal causes (60_exceptions.md R455). -/
def Exc.fatal : Exc → Bool
  | .instructionAddressMisaligned => true
  | .instructionAccessFault => true
  | .loadAccessFault => true
  | .storeAmoAddressMisaligned => true
  | .storeAmoAccessFault => true
  | .illegalInstruction => false
  | .breakpoint => false
  | .loadAddressMisaligned => false
  | .environmentCallFromU => false
  | .environmentCallFromS => false
  | .environmentCallFromM => false
  | .instructionPageFault => false
  | .loadPageFault => false
  | .storeAmoPageFault => false

/-- An interrupt's code, which is its bit in `mie` and `mip` (10_state.md R51). -/
def Interrupt.code : Interrupt → Nat
  | .supervisorSoftware => 1
  | .machineSoftware => 3
  | .supervisorTimer => 5
  | .machineTimer => 7
  | .supervisorExternal => 9
  | .machineExternal => 11

/-- The selection order, first match wins (60_exceptions.md R452). -/
def Interrupt.priorityOrder : List Interrupt :=
  [.machineExternal, .machineSoftware, .machineTimer, .supervisorExternal, .supervisorSoftware, .supervisorTimer]

/-- A trap's code: the cause without the interrupt bit (00_scope.md R31). -/
def Trap.code : Trap → Nat
  | .exc e => e.code
  | .int i => i.code

def Trap.isInterrupt : Trap → Bool
  | .exc _ => false
  | .int _ => true

/-- The value written to `xcause` (60_exceptions.md R453, R460). -/
def Trap.cause (t : Trap) : Word :=
  if t.isInterrupt then (1#64 <<< 63) ||| BitVec.ofNat 64 t.code else BitVec.ofNat 64 t.code

/-- The vector target (60_exceptions.md R463): base + 4 × code for an interrupt under a vectored `tvec`, else base. -/
def trapTarget (tvec : Word) (t : Trap) : Word :=
  let base := tvec &&& ~~~1#64
  if t.isInterrupt && tvec.getLsbD 0 then base + BitVec.ofNat 64 (4 * t.code) else base

/-- The access fault of a kind (20_memory.md R111). -/
def AccessKind.accessFault : AccessKind → Exc
  | .fetch => .instructionAccessFault
  | .load => .loadAccessFault
  | .store => .storeAmoAccessFault

/-- The page fault of a kind (20_memory.md R111). -/
def AccessKind.pageFault : AccessKind → Exc
  | .fetch => .instructionPageFault
  | .load => .loadPageFault
  | .store => .storeAmoPageFault

/-- The bytes of an access (20_memory.md R103). -/
def Width.bytes : Width → Nat
  | .byte => 1
  | .half => 2
  | .word => 4
  | .double => 8

end Sys2Proof.Machine
end

