-- ==== Sys2Proof/Machine/Ops.lean ====
section
/-! DEFINITION. The named operations over memory, registers and CSRs, taking a trap (spec 60_exceptions.md R460 to
R463) and returning from one (46_system.md R376, R377). -/

namespace Sys2Proof.Machine

/-! ## Sparse stores: keys strictly rising, no entry equal to the default (notes/assumptions/4.md) -/

/-- What `k` reads as: its entry, or `d`. The list is sorted, so the search stops at a larger key. -/
def sparseRead {α : Type} (d : α) (l : List (Nat × α)) (k : Nat) : α :=
  match l with
  | [] => d
  | (j, w) :: t => if k = j then w else if k < j then d else sparseRead d t k

/-- Every key of `l` is above `k`, as far as its first entry tells. -/
def headAbove {α : Type} (k : Nat) (l : List (Nat × α)) : Bool :=
  match l with
  | [] => true
  | (j, _) :: _ => decide (k < j)

/-- `l` with the entry (k, v) in front, or without it where `v` is the default. (In a list that is not in canonical form
the entry stays, so that reading after writing is right in every list.) -/
def consEntry {α : Type} [DecidableEq α] (d : α) (k : Nat) (v : α) (l : List (Nat × α)) : List (Nat × α) :=
  if v = d ∧ headAbove k l = true then l else (k, v) :: l

/-- Writes `v` at `k`, keeping the canonical form. -/
def sparseWrite {α : Type} [DecidableEq α] (d : α) (l : List (Nat × α)) (k : Nat) (v : α) : List (Nat × α) :=
  match l with
  | [] => consEntry d k v []
  | (j, w) :: t =>
    if k < j then consEntry d k v ((j, w) :: t)
    else if k = j then consEntry d k v t
    else (j, w) :: sparseWrite d t k v

/-- The canonical form: keys strictly rising, no entry equal to the default. -/
def sparseWf {α : Type} [DecidableEq α] (d : α) (l : List (Nat × α)) : Bool :=
  match l with
  | [] => true
  | (k, v) :: t => decide (v ≠ d) && headAbove k t && sparseWf d t

/-- What a byte that is not listed reads as: 0 (10_state.md R62, R65, R66). -/
def unlistedByte : Byte := 0

/-- One byte of DRAM, of the console's register file or of the disk. -/
def Memory.read (m : List Host.Cell) (a : Nat) : Byte := sparseRead unlistedByte m a

def Memory.write (m : List Host.Cell) (a : Nat) (b : Byte) : List Host.Cell := sparseWrite unlistedByte m a b

/-- The canonical form of a byte store. -/
def Memory.wf (m : List Host.Cell) : Bool := sparseWf unlistedByte m

/-- The `n` bytes from `a`, the first in bits 7:0 (20_memory.md R100, R106). -/
def Memory.readLE (m : List Host.Cell) (a : Nat) (n : Nat) : Word :=
  match n with
  | 0 => 0
  | n + 1 => (Memory.read m a).setWidth 64 ||| (Memory.readLE m (a + 1) n <<< 8)

/-- Stores the low `n` bytes of `v` from `a` on, bits 7:0 first (20_memory.md R100, R106). -/
def Memory.writeLE (m : List Host.Cell) (a : Nat) (n : Nat) (v : Word) : List Host.Cell :=
  match n with
  | 0 => m
  | n + 1 => Memory.writeLE (Memory.write m a (v.setWidth 8)) (a + 1) n (v >>> 8)

/-- A byte sequence copied from `a` on (70_reset_and_hazards.md R565). -/
def Memory.writeBytes (m : List Host.Cell) (a : Nat) (bytes : List Byte) : List Host.Cell :=
  match bytes with
  | [] => m
  | b :: rest => Memory.writeBytes (Memory.write m a b) (a + 1) rest

/-- One byte of DRAM at a physical address. -/
def State.byte (s : State) (a : Nat) : Byte := Memory.read s.mem a

/-! ## General registers (10_state.md R40, R41) -/

/-- `x[r]`; `x[0]` reads 0. -/
def State.reg (s : State) (r : RegIdx) : Word := if r = 0 then 0 else s.x.get r.toFin

/-- `x[r] <- v`; a write to `x0` has no lasting effect (notes/assumptions/7.md). -/
def State.setReg (s : State) (r : RegIdx) (v : Word) : State :=
  if r = 0 then s
  else { s with x := s.x.set r.toNat v r.isLt, written := s.written.set r.toNat true r.isLt }

/-- The register holds a value since reset (10_state.md R42). -/
def State.isWritten (s : State) (r : RegIdx) : Bool := r == 0 || s.written.get r.toFin

/-! ## Field updates -/

def State.setPc (s : State) (v : Word) : State := { s with pc := v }
def State.setMode (s : State) (m : Mode) : State := { s with mode := m }
def State.setPaging (s : State) (on : Bool) (root : Word) : State := { s with paging := on, ptRoot := root }
def State.setResv (s : State) (r : Option Word) : State := { s with resv := r }
def State.setHalted (s : State) (b : Bool) : State := { s with halted := b }
def State.setMem (s : State) (m : List Host.Cell) : State := { s with mem := m }
def State.setClint (s : State) (c : Clint) : State := { s with clint := c }
def State.setPlic (s : State) (p : Plic) : State := { s with plic := p }
def State.setUart (s : State) (u : Uart) : State := { s with uart := u }
def State.setVirtio (s : State) (v : Virtio) : State := { s with virtio := v }
def State.setDisk (s : State) (d : List Host.Cell) : State := { s with disk := d }
def State.setOut (s : State) (o : List Byte) : State := { s with out := o }
def State.setInput (s : State) (i : List (Option Byte)) : State := { s with input := i }

/-- The pc past the fetched word (40_fetch_and_step.md R202). -/
def State.advance (s : State) : State := s.setPc (s.pc + 4)

/-- `ipc`: during execute `pc` holds `ipc + 4` (00_scope.md R27). -/
def State.ipc (s : State) : Word := s.pc - 4

/-! ## CSRs (10_state.md R45 to R48, R56) -/

namespace Csr
def sstatus  : CsrNum := 0x100
def sie      : CsrNum := 0x104
def stvec    : CsrNum := 0x105
def sscratch : CsrNum := 0x140
def sepc     : CsrNum := 0x141
def scause   : CsrNum := 0x142
def stval    : CsrNum := 0x143
def sip      : CsrNum := 0x144
def satp     : CsrNum := 0x180
def mstatus  : CsrNum := 0x300
def misa     : CsrNum := 0x301
def medeleg  : CsrNum := 0x302
def mideleg  : CsrNum := 0x303
def mie      : CsrNum := 0x304
def mtvec    : CsrNum := 0x305
def mscratch : CsrNum := 0x340
def mepc     : CsrNum := 0x341
def mcause   : CsrNum := 0x342
def mtval    : CsrNum := 0x343
def mip      : CsrNum := 0x344
def mhartid  : CsrNum := 0xF14
end Csr

/-- `csr[a]`: the raw bank entry (00_scope.md R28). -/
def State.csrRaw (s : State) (a : CsrNum) : Word := sparseRead 0 s.csr a.toNat

/-- `csr[a] <- v`: the raw bank entry. -/
def State.setCsr (s : State) (a : CsrNum) (v : Word) : State := { s with csr := sparseWrite 0 s.csr a.toNat v }

/-- `CsrRead(a)` (10_state.md R46): `sie` is `mie & mideleg`. -/
def State.csrRead (s : State) (a : CsrNum) : Word :=
  if a = Csr.sie then s.csrRaw Csr.mie &&& s.csrRaw Csr.mideleg else s.csrRaw a

/-- `CsrWrite(a, v)` (10_state.md R47): `sie` writes the delegated bits of `mie`; `satp` re-derives the paging state. -/
def State.csrWrite (s : State) (a : CsrNum) (v : Word) : State :=
  if a = Csr.sie then
    s.setCsr Csr.mie ((s.csrRaw Csr.mie &&& ~~~s.csrRaw Csr.mideleg) ||| (v &&& s.csrRaw Csr.mideleg))
  else if a = Csr.satp then
    (s.setCsr Csr.satp v).setPaging (satpPaging v) (satpRoot s.cfg v)
  else s.setCsr a v

/-! ## Taking a trap (60_exceptions.md R460 to R463) -/

/-- The pc a trap saves (R460): pc - 4, or pc for an interrupt under `INTR_EPC = PC`. -/
def State.trapEpc (s : State) (t : Trap) : Word :=
  if t.isInterrupt && s.cfg.intrEpc == .pc then s.pc else s.pc - 4

/-- A trap goes to Supervisor mode exactly when it is taken from User or Supervisor mode and `medeleg` has its code's
bit set (R461). -/
def State.delegated (s : State) (t : Trap) : Bool :=
  s.mode != .machine && (s.csrRaw Csr.medeleg).getLsbD t.code

/-- Entry to Supervisor mode (R462). -/
def State.enterS (s : State) (t : Trap) : State :=
  (((((s.setCsr Csr.sepc (s.trapEpc t)).setCsr Csr.scause t.cause).setCsr Csr.stval 0).setCsr Csr.sstatus
    (sstatusOnEntry (s.csrRaw Csr.sstatus) s.mode)).setMode .supervisor).setPc (trapTarget (s.csrRaw Csr.stvec) t)

/-- Entry to Machine mode (R462). -/
def State.enterM (s : State) (t : Trap) : State :=
  (((((s.setCsr Csr.mepc (s.trapEpc t)).setCsr Csr.mcause t.cause).setCsr Csr.mtval 0).setCsr Csr.mstatus
    (mstatusOnEntry (s.csrRaw Csr.mstatus) s.mode)).setMode .machine).setPc (trapTarget (s.csrRaw Csr.mtvec) t)

/-- `TakeTrap` (R460): the reservation is cleared and the trap goes to S or M. -/
def State.takeTrap (s : State) (t : Trap) : State :=
  (if s.delegated t then s.enterS t else s.enterM t).setResv none

/-- Delivers an exception; after a fatal one the machine halts (40_fetch_and_step.md R205, R206). -/
def State.deliver (s : State) (e : Exc) : State :=
  if e.fatal then (s.takeTrap (.exc e)).setHalted true else s.takeTrap (.exc e)

/-- `raise E` in an instruction (00_scope.md R26): nothing of the instruction itself is kept. -/
def raise (e : Exc) (s : State) : Result := .next (s.deliver e)

/-! ## Returning from a trap (46_system.md R376, R377) -/

/-- SRET's effect. -/
def State.returnS (s : State) : State :=
  ((s.setCsr Csr.sstatus (sstatusOnReturn (s.csrRaw Csr.sstatus))).setMode (sretMode (s.csrRaw Csr.sstatus))).setPc
    (s.csrRaw Csr.sepc)

/-- MRET's effect, to the mode MPP names. -/
def State.returnM (s : State) (m : Mode) : State :=
  ((s.setCsr Csr.mstatus (mstatusOnReturn (s.csrRaw Csr.mstatus))).setMode m).setPc (s.csrRaw Csr.mepc)

end Sys2Proof.Machine
end

