-- ==== Sys2Proof/Machine/Loader.lean ====
section
/-! DEFINITION. The loader, which acts once before the first step (spec 70_reset_and_hazards.md R565). -/

namespace Sys2Proof.Machine

/-- Copies the guest image to the start of DRAM and the disk image to the disk buffer, whose size becomes the disk
image's length. An image longer than `DRAM_SIZE` is refused (R565). -/
def State.load (s : State) (image disk : List Byte) : Result :=
  if s.cfg.dramSize < image.length then .refused .imageTooLong
  else .next
    { s with
      cfg := { s.cfg with diskSize := disk.length }
      mem := Memory.writeBytes s.mem s.cfg.dramBase image
      disk := Memory.writeBytes [] 0 disk }

end Sys2Proof.Machine
end

