-- ==== Sys2Proof/Decode.lean ====
section
/-! DEFINITION. The instruction decoder (spec 30_encoding.md R160 to R186), the encoder written from the same
tables, the opcode table of R183 as data, and the host's `decodeTableWord`. -/

namespace Sys2Proof

/-! ## Fields and immediates (30_encoding.md R161 to R171) -/

def opcodeOf (w : BitVec 32) : BitVec 7 := w.extractLsb' 0 7
def rdOf (w : BitVec 32) : RegIdx := w.extractLsb' 7 5
def funct3Of (w : BitVec 32) : BitVec 3 := w.extractLsb' 12 3
def rs1Of (w : BitVec 32) : RegIdx := w.extractLsb' 15 5
def rs2Of (w : BitVec 32) : RegIdx := w.extractLsb' 20 5
def funct7Of (w : BitVec 32) : BitVec 7 := w.extractLsb' 25 7
def funct6Of (w : BitVec 32) : BitVec 6 := w.extractLsb' 26 6
def funct5Of (w : BitVec 32) : BitVec 5 := w.extractLsb' 27 5
/-- `aq` (R170). -/
def aqOf (w : BitVec 32) : Bool := w.getLsbD 26
/-- `rl` (R170). -/
def rlOf (w : BitVec 32) : Bool := w.getLsbD 25
/-- w[31:20]: the I-immediate (R163) or the CSR number (R169). -/
def immIOf (w : BitVec 32) : BitVec 12 := w.extractLsb' 20 12
/-- The S-immediate (R164). -/
def immSOf (w : BitVec 32) : BitVec 12 := w.extractLsb' 25 7 ++ w.extractLsb' 7 5
/-- The B-immediate (R165), a byte offset whose bit 0 is 0. -/
def immBOf (w : BitVec 32) : BitVec 13 :=
  w.extractLsb' 31 1 ++ w.extractLsb' 7 1 ++ w.extractLsb' 25 6 ++ w.extractLsb' 8 4 ++ 0#1
/-- w[31:12], the encoded part of the U-immediate (R166). -/
def immUOf (w : BitVec 32) : BitVec 20 := w.extractLsb' 12 20
/-- The J-immediate (R167), a byte offset whose bit 0 is 0. -/
def immJOf (w : BitVec 32) : BitVec 21 :=
  w.extractLsb' 31 1 ++ w.extractLsb' 12 8 ++ w.extractLsb' 20 1 ++ w.extractLsb' 21 10 ++ 0#1
/-- The 64-bit shift amount (R168). -/
def shamt6Of (w : BitVec 32) : BitVec 6 := w.extractLsb' 20 6

/-! ## The decoder -/

/-- Why a word is no instruction (30_encoding.md R185). The machine turns each into IllegalInstruction. -/
inductive DecodeError where
  /-- fewer than four bytes (R160) -/
  | truncated
  /-- an opcode not in R172 -/
  | unknownOpcode
  /-- LOAD with funct3 = 7 (R173) -/
  | reservedLoad
  /-- STORE with funct3 4 to 7 (R174) -/
  | reservedStore
  /-- BRANCH with funct3 2 or 3 (R175) -/
  | reservedBranch
  /-- JALR with funct3 1 to 7 (R175) -/
  | reservedJalr
  /-- an OP-IMM shift with another funct6 (R176) -/
  | reservedOpImm
  /-- an empty cell of the OP table (R177) -/
  | reservedOp
  /-- another funct3 or shift funct7 of OP-IMM-32 (R178) -/
  | reservedOpImm32
  /-- an empty cell of the OP-32 table (R179) -/
  | reservedOp32
  /-- MISC-MEM with funct3 2 to 7 (R180) -/
  | reservedMiscMem
  /-- another SYSTEM funct3, or another (funct7, rs2) pair (R181) -/
  | reservedSystem
  /-- another AMO funct3 or funct5, or LR with rs2 not 0 (R182) -/
  | reservedAmo
  /-- an RV64M word with `HAS_M = false` (R185, 45_muldiv.md R350) -/
  | multiplyAbsent
  deriving DecidableEq, Repr

/-- LOAD (30_encoding.md R173). -/
def decodeLoad (w : BitVec 32) : Except DecodeError Instr :=
  match (funct3Of w).toNat with
  | 0 => .ok (.lb (rdOf w) (rs1Of w) (immIOf w))
  | 1 => .ok (.lh (rdOf w) (rs1Of w) (immIOf w))
  | 2 => .ok (.lw (rdOf w) (rs1Of w) (immIOf w))
  | 3 => .ok (.ld (rdOf w) (rs1Of w) (immIOf w))
  | 4 => .ok (.lbu (rdOf w) (rs1Of w) (immIOf w))
  | 5 => .ok (.lhu (rdOf w) (rs1Of w) (immIOf w))
  | 6 => .ok (.lwu (rdOf w) (rs1Of w) (immIOf w))
  | _ => .error .reservedLoad

/-- STORE (30_encoding.md R174). -/
def decodeStore (w : BitVec 32) : Except DecodeError Instr :=
  match (funct3Of w).toNat with
  | 0 => .ok (.sb (rs1Of w) (rs2Of w) (immSOf w))
  | 1 => .ok (.sh (rs1Of w) (rs2Of w) (immSOf w))
  | 2 => .ok (.sw (rs1Of w) (rs2Of w) (immSOf w))
  | 3 => .ok (.sd (rs1Of w) (rs2Of w) (immSOf w))
  | _ => .error .reservedStore

/-- BRANCH (30_encoding.md R175). -/
def decodeBranch (w : BitVec 32) : Except DecodeError Instr :=
  match (funct3Of w).toNat with
  | 0 => .ok (.beq (rs1Of w) (rs2Of w) (immBOf w))
  | 1 => .ok (.bne (rs1Of w) (rs2Of w) (immBOf w))
  | 4 => .ok (.blt (rs1Of w) (rs2Of w) (immBOf w))
  | 5 => .ok (.bge (rs1Of w) (rs2Of w) (immBOf w))
  | 6 => .ok (.bltu (rs1Of w) (rs2Of w) (immBOf w))
  | 7 => .ok (.bgeu (rs1Of w) (rs2Of w) (immBOf w))
  | _ => .error .reservedBranch

/-- JALR (30_encoding.md R175). -/
def decodeJalr (w : BitVec 32) : Except DecodeError Instr :=
  match (funct3Of w).toNat with
  | 0 => .ok (.jalr (rdOf w) (rs1Of w) (immIOf w))
  | _ => .error .reservedJalr

/-- OP-IMM (30_encoding.md R176). The shifts also check funct6. -/
def decodeOpImm (w : BitVec 32) : Except DecodeError Instr :=
  match (funct3Of w).toNat with
  | 0 => .ok (.addi (rdOf w) (rs1Of w) (immIOf w))
  | 2 => .ok (.slti (rdOf w) (rs1Of w) (immIOf w))
  | 3 => .ok (.sltiu (rdOf w) (rs1Of w) (immIOf w))
  | 4 => .ok (.xori (rdOf w) (rs1Of w) (immIOf w))
  | 6 => .ok (.ori (rdOf w) (rs1Of w) (immIOf w))
  | 7 => .ok (.andi (rdOf w) (rs1Of w) (immIOf w))
  | 1 =>
    match (funct6Of w).toNat with
    | 0x00 => .ok (.slli (rdOf w) (rs1Of w) (shamt6Of w))
    | _ => .error .reservedOpImm
  | _ =>
    match (funct6Of w).toNat with
    | 0x00 => .ok (.srli (rdOf w) (rs1Of w) (shamt6Of w))
    | 0x10 => .ok (.srai (rdOf w) (rs1Of w) (shamt6Of w))
    | _ => .error .reservedOpImm

/-- OP (30_encoding.md R177). -/
def decodeOp (w : BitVec 32) : Except DecodeError Instr :=
  match (funct7Of w).toNat, (funct3Of w).toNat with
  | 0x00, 0 => .ok (.add (rdOf w) (rs1Of w) (rs2Of w))
  | 0x00, 1 => .ok (.sll (rdOf w) (rs1Of w) (rs2Of w))
  | 0x00, 2 => .ok (.slt (rdOf w) (rs1Of w) (rs2Of w))
  | 0x00, 3 => .ok (.sltu (rdOf w) (rs1Of w) (rs2Of w))
  | 0x00, 4 => .ok (.xor (rdOf w) (rs1Of w) (rs2Of w))
  | 0x00, 5 => .ok (.srl (rdOf w) (rs1Of w) (rs2Of w))
  | 0x00, 6 => .ok (.or (rdOf w) (rs1Of w) (rs2Of w))
  | 0x00, 7 => .ok (.and (rdOf w) (rs1Of w) (rs2Of w))
  | 0x20, 0 => .ok (.sub (rdOf w) (rs1Of w) (rs2Of w))
  | 0x20, 5 => .ok (.sra (rdOf w) (rs1Of w) (rs2Of w))
  | 0x01, 0 => .ok (.mul (rdOf w) (rs1Of w) (rs2Of w))
  | 0x01, 1 => .ok (.mulh (rdOf w) (rs1Of w) (rs2Of w))
  | 0x01, 2 => .ok (.mulhsu (rdOf w) (rs1Of w) (rs2Of w))
  | 0x01, 3 => .ok (.mulhu (rdOf w) (rs1Of w) (rs2Of w))
  | 0x01, 4 => .ok (.div (rdOf w) (rs1Of w) (rs2Of w))
  | 0x01, 5 => .ok (.divu (rdOf w) (rs1Of w) (rs2Of w))
  | 0x01, 6 => .ok (.rem (rdOf w) (rs1Of w) (rs2Of w))
  | 0x01, 7 => .ok (.remu (rdOf w) (rs1Of w) (rs2Of w))
  | _, _ => .error .reservedOp

/-- OP-IMM-32 (30_encoding.md R178). Bit 25 of a shift is part of funct7. -/
def decodeOpImm32 (w : BitVec 32) : Except DecodeError Instr :=
  match (funct3Of w).toNat with
  | 0 => .ok (.addiw (rdOf w) (rs1Of w) (immIOf w))
  | 1 =>
    match (funct7Of w).toNat with
    | 0x00 => .ok (.slliw (rdOf w) (rs1Of w) (rs2Of w))
    | _ => .error .reservedOpImm32
  | 5 =>
    match (funct7Of w).toNat with
    | 0x00 => .ok (.srliw (rdOf w) (rs1Of w) (rs2Of w))
    | 0x20 => .ok (.sraiw (rdOf w) (rs1Of w) (rs2Of w))
    | _ => .error .reservedOpImm32
  | _ => .error .reservedOpImm32

/-- OP-32 (30_encoding.md R179). -/
def decodeOp32 (w : BitVec 32) : Except DecodeError Instr :=
  match (funct7Of w).toNat, (funct3Of w).toNat with
  | 0x00, 0 => .ok (.addw (rdOf w) (rs1Of w) (rs2Of w))
  | 0x00, 1 => .ok (.sllw (rdOf w) (rs1Of w) (rs2Of w))
  | 0x00, 5 => .ok (.srlw (rdOf w) (rs1Of w) (rs2Of w))
  | 0x20, 0 => .ok (.subw (rdOf w) (rs1Of w) (rs2Of w))
  | 0x20, 5 => .ok (.sraw (rdOf w) (rs1Of w) (rs2Of w))
  | 0x01, 0 => .ok (.mulw (rdOf w) (rs1Of w) (rs2Of w))
  | 0x01, 4 => .ok (.divw (rdOf w) (rs1Of w) (rs2Of w))
  | 0x01, 5 => .ok (.divuw (rdOf w) (rs1Of w) (rs2Of w))
  | 0x01, 6 => .ok (.remw (rdOf w) (rs1Of w) (rs2Of w))
  | 0x01, 7 => .ok (.remuw (rdOf w) (rs1Of w) (rs2Of w))
  | _, _ => .error .reservedOp32

/-- MISC-MEM (30_encoding.md R180): funct3 alone selects. -/
def decodeMiscMem (w : BitVec 32) : Except DecodeError Instr :=
  match (funct3Of w).toNat with
  | 0 => .ok (.fence (w.extractLsb' 28 4) (w.extractLsb' 24 4) (w.extractLsb' 20 4) (rs1Of w) (rdOf w))
  | 1 => .ok (.fenceI (immIOf w) (rs1Of w) (rdOf w))
  | _ => .error .reservedMiscMem

/-- SYSTEM with funct3 = 0 (30_encoding.md R181): the pair (funct7, rs2) selects. -/
def decodePrivileged (w : BitVec 32) : Except DecodeError Instr :=
  match (funct7Of w).toNat, (rs2Of w).toNat with
  | 0x00, 0 => .ok (.ecall (rs1Of w) (rdOf w))
  | 0x00, 1 => .ok (.ebreak (rs1Of w) (rdOf w))
  | 0x08, 2 => .ok (.sret (rs1Of w) (rdOf w))
  | 0x18, 2 => .ok (.mret (rs1Of w) (rdOf w))
  | 0x08, 5 => .ok (.wfi (rs1Of w) (rdOf w))
  | 0x09, _ => .ok (.sfenceVma (rs1Of w) (rs2Of w) (rdOf w))
  | _, _ => .error .reservedSystem

/-- SYSTEM (30_encoding.md R181). -/
def decodeSystem (w : BitVec 32) : Except DecodeError Instr :=
  match (funct3Of w).toNat with
  | 0 => decodePrivileged w
  | 1 => .ok (.csrrw (rdOf w) (rs1Of w) (immIOf w))
  | 2 => .ok (.csrrs (rdOf w) (rs1Of w) (immIOf w))
  | 3 => .ok (.csrrc (rdOf w) (rs1Of w) (immIOf w))
  | 5 => .ok (.csrrwi (rdOf w) (rs1Of w) (immIOf w))
  | 6 => .ok (.csrrsi (rdOf w) (rs1Of w) (immIOf w))
  | 7 => .ok (.csrrci (rdOf w) (rs1Of w) (immIOf w))
  | _ => .error .reservedSystem

/-- AMO with funct3 = 2, the 32-bit forms (30_encoding.md R182). -/
def decodeAmoW (w : BitVec 32) : Except DecodeError Instr :=
  match (funct5Of w).toNat with
  | 0x02 => if rs2Of w = 0 then .ok (.lrW (rdOf w) (rs1Of w) (aqOf w) (rlOf w)) else .error .reservedAmo
  | 0x03 => .ok (.scW (rdOf w) (rs1Of w) (rs2Of w) (aqOf w) (rlOf w))
  | 0x01 => .ok (.amoswapW (rdOf w) (rs1Of w) (rs2Of w) (aqOf w) (rlOf w))
  | 0x00 => .ok (.amoaddW (rdOf w) (rs1Of w) (rs2Of w) (aqOf w) (rlOf w))
  | 0x04 => .ok (.amoxorW (rdOf w) (rs1Of w) (rs2Of w) (aqOf w) (rlOf w))
  | 0x0C => .ok (.amoandW (rdOf w) (rs1Of w) (rs2Of w) (aqOf w) (rlOf w))
  | 0x08 => .ok (.amoorW (rdOf w) (rs1Of w) (rs2Of w) (aqOf w) (rlOf w))
  | 0x10 => .ok (.amominW (rdOf w) (rs1Of w) (rs2Of w) (aqOf w) (rlOf w))
  | 0x14 => .ok (.amomaxW (rdOf w) (rs1Of w) (rs2Of w) (aqOf w) (rlOf w))
  | 0x18 => .ok (.amominuW (rdOf w) (rs1Of w) (rs2Of w) (aqOf w) (rlOf w))
  | 0x1C => .ok (.amomaxuW (rdOf w) (rs1Of w) (rs2Of w) (aqOf w) (rlOf w))
  | _ => .error .reservedAmo

/-- AMO with funct3 = 3, the 64-bit forms (30_encoding.md R182). -/
def decodeAmoD (w : BitVec 32) : Except DecodeError Instr :=
  match (funct5Of w).toNat with
  | 0x02 => if rs2Of w = 0 then .ok (.lrD (rdOf w) (rs1Of w) (aqOf w) (rlOf w)) else .error .reservedAmo
  | 0x03 => .ok (.scD (rdOf w) (rs1Of w) (rs2Of w) (aqOf w) (rlOf w))
  | 0x01 => .ok (.amoswapD (rdOf w) (rs1Of w) (rs2Of w) (aqOf w) (rlOf w))
  | 0x00 => .ok (.amoaddD (rdOf w) (rs1Of w) (rs2Of w) (aqOf w) (rlOf w))
  | 0x04 => .ok (.amoxorD (rdOf w) (rs1Of w) (rs2Of w) (aqOf w) (rlOf w))
  | 0x0C => .ok (.amoandD (rdOf w) (rs1Of w) (rs2Of w) (aqOf w) (rlOf w))
  | 0x08 => .ok (.amoorD (rdOf w) (rs1Of w) (rs2Of w) (aqOf w) (rlOf w))
  | 0x10 => .ok (.amominD (rdOf w) (rs1Of w) (rs2Of w) (aqOf w) (rlOf w))
  | 0x14 => .ok (.amomaxD (rdOf w) (rs1Of w) (rs2Of w) (aqOf w) (rlOf w))
  | 0x18 => .ok (.amominuD (rdOf w) (rs1Of w) (rs2Of w) (aqOf w) (rlOf w))
  | 0x1C => .ok (.amomaxuD (rdOf w) (rs1Of w) (rs2Of w) (aqOf w) (rlOf w))
  | _ => .error .reservedAmo

/-- AMO (30_encoding.md R182): funct3 selects the width. -/
def decodeAmo (w : BitVec 32) : Except DecodeError Instr :=
  match (funct3Of w).toNat with
  | 2 => decodeAmoW w
  | 3 => decodeAmoD w
  | _ => .error .reservedAmo

/-- The opcode map (30_encoding.md R172), with RV64M present. -/
def decodeOpcode (w : BitVec 32) : Except DecodeError Instr :=
  match (opcodeOf w).toNat with
  | 0x37 => .ok (.lui (rdOf w) (immUOf w))
  | 0x17 => .ok (.auipc (rdOf w) (immUOf w))
  | 0x6F => .ok (.jal (rdOf w) (immJOf w))
  | 0x67 => decodeJalr w
  | 0x63 => decodeBranch w
  | 0x03 => decodeLoad w
  | 0x23 => decodeStore w
  | 0x13 => decodeOpImm w
  | 0x33 => decodeOp w
  | 0x1B => decodeOpImm32 w
  | 0x3B => decodeOp32 w
  | 0x0F => decodeMiscMem w
  | 0x73 => decodeSystem w
  | 0x2F => decodeAmo w
  | _ => .error .unknownOpcode

/-- The decoder (30_encoding.md R183): a 32-bit word to an instruction or a named rejection. With
`HAS_M = false` the 13 RV64M words are illegal (45_muldiv.md R350). -/
def decodeWord (hasM : Bool) (w : BitVec 32) : Except DecodeError Instr :=
  match decodeOpcode w with
  | .error e => .error e
  | .ok i => if i.presentIn hasM then .ok i else .error .multiplyAbsent

/-- A 32-bit word from its four bytes, the first at the lowest address (20_memory.md R100). -/
def wordOfBytes (b0 b1 b2 b3 : Byte) : BitVec 32 := b3 ++ b2 ++ b1 ++ b0

/-- The decoder on any bytes: one instruction and the bytes after it (30_encoding.md R160). -/
def decodeBytes (hasM : Bool) (bytes : List Byte) : Except DecodeError (Instr × List Byte) :=
  match bytes with
  | b0 :: b1 :: b2 :: b3 :: rest =>
    match decodeWord hasM (wordOfBytes b0 b1 b2 b3) with
    | .ok i => .ok (i, rest)
    | .error e => .error e
  | _ => .error .truncated

/-! ## The encoder (30_encoding.md R162 and R172 to R182) -/

def encR (f7 : BitVec 7) (rs2 rs1 : RegIdx) (f3 : BitVec 3) (rd : RegIdx) (op : BitVec 7) : BitVec 32 :=
  f7 ++ rs2 ++ rs1 ++ f3 ++ rd ++ op
def encI (imm : BitVec 12) (rs1 : RegIdx) (f3 : BitVec 3) (rd : RegIdx) (op : BitVec 7) : BitVec 32 :=
  imm ++ rs1 ++ f3 ++ rd ++ op
def encS (imm : BitVec 12) (rs2 rs1 : RegIdx) (f3 : BitVec 3) (op : BitVec 7) : BitVec 32 :=
  imm.extractLsb' 5 7 ++ rs2 ++ rs1 ++ f3 ++ imm.extractLsb' 0 5 ++ op
def encB (off : BitVec 13) (rs2 rs1 : RegIdx) (f3 : BitVec 3) (op : BitVec 7) : BitVec 32 :=
  off.extractLsb' 12 1 ++ off.extractLsb' 5 6 ++ rs2 ++ rs1 ++ f3 ++ off.extractLsb' 1 4 ++ off.extractLsb' 11 1 ++ op
def encU (imm : BitVec 20) (rd : RegIdx) (op : BitVec 7) : BitVec 32 := imm ++ rd ++ op
def encJ (off : BitVec 21) (rd : RegIdx) (op : BitVec 7) : BitVec 32 :=
  off.extractLsb' 20 1 ++ off.extractLsb' 1 10 ++ off.extractLsb' 11 1 ++ off.extractLsb' 12 8 ++ rd ++ op
/-- I-shift64: funct6 and a 6-bit shamt. -/
def encSh6 (f6 : BitVec 6) (shamt : BitVec 6) (rs1 : RegIdx) (f3 : BitVec 3) (rd : RegIdx) (op : BitVec 7) : BitVec 32 :=
  f6 ++ shamt ++ rs1 ++ f3 ++ rd ++ op
def encFence (fm pred succ : BitVec 4) (rs1 : RegIdx) (f3 : BitVec 3) (rd : RegIdx) (op : BitVec 7) : BitVec 32 :=
  fm ++ pred ++ succ ++ rs1 ++ f3 ++ rd ++ op
/-- R-amo: funct5, aq, rl. -/
def encAmo (f5 : BitVec 5) (aq rl : Bool) (rs2 rs1 : RegIdx) (f3 : BitVec 3) (rd : RegIdx) : BitVec 32 :=
  f5 ++ BitVec.ofBool aq ++ BitVec.ofBool rl ++ rs2 ++ rs1 ++ f3 ++ rd ++ 0x2F#7

/-- The word of an instruction. -/
def encode (i : Instr) : BitVec 32 :=
  match i with
  | .lui rd imm => encU imm rd 0x37
  | .auipc rd imm => encU imm rd 0x17
  | .jal rd off => encJ off rd 0x6F
  | .jalr rd rs1 imm => encI imm rs1 0 rd 0x67
  | .beq rs1 rs2 off => encB off rs2 rs1 0 0x63
  | .bne rs1 rs2 off => encB off rs2 rs1 1 0x63
  | .blt rs1 rs2 off => encB off rs2 rs1 4 0x63
  | .bge rs1 rs2 off => encB off rs2 rs1 5 0x63
  | .bltu rs1 rs2 off => encB off rs2 rs1 6 0x63
  | .bgeu rs1 rs2 off => encB off rs2 rs1 7 0x63
  | .lb rd rs1 imm => encI imm rs1 0 rd 0x03
  | .lh rd rs1 imm => encI imm rs1 1 rd 0x03
  | .lw rd rs1 imm => encI imm rs1 2 rd 0x03
  | .ld rd rs1 imm => encI imm rs1 3 rd 0x03
  | .lbu rd rs1 imm => encI imm rs1 4 rd 0x03
  | .lhu rd rs1 imm => encI imm rs1 5 rd 0x03
  | .lwu rd rs1 imm => encI imm rs1 6 rd 0x03
  | .sb rs1 rs2 imm => encS imm rs2 rs1 0 0x23
  | .sh rs1 rs2 imm => encS imm rs2 rs1 1 0x23
  | .sw rs1 rs2 imm => encS imm rs2 rs1 2 0x23
  | .sd rs1 rs2 imm => encS imm rs2 rs1 3 0x23
  | .addi rd rs1 imm => encI imm rs1 0 rd 0x13
  | .slti rd rs1 imm => encI imm rs1 2 rd 0x13
  | .sltiu rd rs1 imm => encI imm rs1 3 rd 0x13
  | .xori rd rs1 imm => encI imm rs1 4 rd 0x13
  | .ori rd rs1 imm => encI imm rs1 6 rd 0x13
  | .andi rd rs1 imm => encI imm rs1 7 rd 0x13
  | .slli rd rs1 shamt => encSh6 0x00 shamt rs1 1 rd 0x13
  | .srli rd rs1 shamt => encSh6 0x00 shamt rs1 5 rd 0x13
  | .srai rd rs1 shamt => encSh6 0x10 shamt rs1 5 rd 0x13
  | .add rd rs1 rs2 => encR 0x00 rs2 rs1 0 rd 0x33
  | .sub rd rs1 rs2 => encR 0x20 rs2 rs1 0 rd 0x33
  | .sll rd rs1 rs2 => encR 0x00 rs2 rs1 1 rd 0x33
  | .slt rd rs1 rs2 => encR 0x00 rs2 rs1 2 rd 0x33
  | .sltu rd rs1 rs2 => encR 0x00 rs2 rs1 3 rd 0x33
  | .xor rd rs1 rs2 => encR 0x00 rs2 rs1 4 rd 0x33
  | .srl rd rs1 rs2 => encR 0x00 rs2 rs1 5 rd 0x33
  | .sra rd rs1 rs2 => encR 0x20 rs2 rs1 5 rd 0x33
  | .or rd rs1 rs2 => encR 0x00 rs2 rs1 6 rd 0x33
  | .and rd rs1 rs2 => encR 0x00 rs2 rs1 7 rd 0x33
  | .addiw rd rs1 imm => encI imm rs1 0 rd 0x1B
  | .slliw rd rs1 shamt => encR 0x00 shamt rs1 1 rd 0x1B
  | .srliw rd rs1 shamt => encR 0x00 shamt rs1 5 rd 0x1B
  | .sraiw rd rs1 shamt => encR 0x20 shamt rs1 5 rd 0x1B
  | .addw rd rs1 rs2 => encR 0x00 rs2 rs1 0 rd 0x3B
  | .subw rd rs1 rs2 => encR 0x20 rs2 rs1 0 rd 0x3B
  | .sllw rd rs1 rs2 => encR 0x00 rs2 rs1 1 rd 0x3B
  | .srlw rd rs1 rs2 => encR 0x00 rs2 rs1 5 rd 0x3B
  | .sraw rd rs1 rs2 => encR 0x20 rs2 rs1 5 rd 0x3B
  | .mul rd rs1 rs2 => encR 0x01 rs2 rs1 0 rd 0x33
  | .mulh rd rs1 rs2 => encR 0x01 rs2 rs1 1 rd 0x33
  | .mulhsu rd rs1 rs2 => encR 0x01 rs2 rs1 2 rd 0x33
  | .mulhu rd rs1 rs2 => encR 0x01 rs2 rs1 3 rd 0x33
  | .div rd rs1 rs2 => encR 0x01 rs2 rs1 4 rd 0x33
  | .divu rd rs1 rs2 => encR 0x01 rs2 rs1 5 rd 0x33
  | .rem rd rs1 rs2 => encR 0x01 rs2 rs1 6 rd 0x33
  | .remu rd rs1 rs2 => encR 0x01 rs2 rs1 7 rd 0x33
  | .mulw rd rs1 rs2 => encR 0x01 rs2 rs1 0 rd 0x3B
  | .divw rd rs1 rs2 => encR 0x01 rs2 rs1 4 rd 0x3B
  | .divuw rd rs1 rs2 => encR 0x01 rs2 rs1 5 rd 0x3B
  | .remw rd rs1 rs2 => encR 0x01 rs2 rs1 6 rd 0x3B
  | .remuw rd rs1 rs2 => encR 0x01 rs2 rs1 7 rd 0x3B
  | .fence fm pred succ rs1 rd => encFence fm pred succ rs1 0 rd 0x0F
  | .fenceI imm rs1 rd => encI imm rs1 1 rd 0x0F
  | .ecall rs1 rd => encR 0x00 0 rs1 0 rd 0x73
  | .ebreak rs1 rd => encR 0x00 1 rs1 0 rd 0x73
  | .sret rs1 rd => encR 0x08 2 rs1 0 rd 0x73
  | .mret rs1 rd => encR 0x18 2 rs1 0 rd 0x73
  | .wfi rs1 rd => encR 0x08 5 rs1 0 rd 0x73
  | .sfenceVma rs1 rs2 rd => encR 0x09 rs2 rs1 0 rd 0x73
  | .csrrw rd rs1 csr => encI csr rs1 1 rd 0x73
  | .csrrs rd rs1 csr => encI csr rs1 2 rd 0x73
  | .csrrc rd rs1 csr => encI csr rs1 3 rd 0x73
  | .csrrwi rd uimm csr => encI csr uimm 5 rd 0x73
  | .csrrsi rd uimm csr => encI csr uimm 6 rd 0x73
  | .csrrci rd uimm csr => encI csr uimm 7 rd 0x73
  | .lrW rd rs1 aq rl => encAmo 0x02 aq rl 0 rs1 2 rd
  | .scW rd rs1 rs2 aq rl => encAmo 0x03 aq rl rs2 rs1 2 rd
  | .amoswapW rd rs1 rs2 aq rl => encAmo 0x01 aq rl rs2 rs1 2 rd
  | .amoaddW rd rs1 rs2 aq rl => encAmo 0x00 aq rl rs2 rs1 2 rd
  | .amoxorW rd rs1 rs2 aq rl => encAmo 0x04 aq rl rs2 rs1 2 rd
  | .amoandW rd rs1 rs2 aq rl => encAmo 0x0c aq rl rs2 rs1 2 rd
  | .amoorW rd rs1 rs2 aq rl => encAmo 0x08 aq rl rs2 rs1 2 rd
  | .amominW rd rs1 rs2 aq rl => encAmo 0x10 aq rl rs2 rs1 2 rd
  | .amomaxW rd rs1 rs2 aq rl => encAmo 0x14 aq rl rs2 rs1 2 rd
  | .amominuW rd rs1 rs2 aq rl => encAmo 0x18 aq rl rs2 rs1 2 rd
  | .amomaxuW rd rs1 rs2 aq rl => encAmo 0x1c aq rl rs2 rs1 2 rd
  | .lrD rd rs1 aq rl => encAmo 0x02 aq rl 0 rs1 3 rd
  | .scD rd rs1 rs2 aq rl => encAmo 0x03 aq rl rs2 rs1 3 rd
  | .amoswapD rd rs1 rs2 aq rl => encAmo 0x01 aq rl rs2 rs1 3 rd
  | .amoaddD rd rs1 rs2 aq rl => encAmo 0x00 aq rl rs2 rs1 3 rd
  | .amoxorD rd rs1 rs2 aq rl => encAmo 0x04 aq rl rs2 rs1 3 rd
  | .amoandD rd rs1 rs2 aq rl => encAmo 0x0c aq rl rs2 rs1 3 rd
  | .amoorD rd rs1 rs2 aq rl => encAmo 0x08 aq rl rs2 rs1 3 rd
  | .amominD rd rs1 rs2 aq rl => encAmo 0x10 aq rl rs2 rs1 3 rd
  | .amomaxD rd rs1 rs2 aq rl => encAmo 0x14 aq rl rs2 rs1 3 rd
  | .amominuD rd rs1 rs2 aq rl => encAmo 0x18 aq rl rs2 rs1 3 rd
  | .amomaxuD rd rs1 rs2 aq rl => encAmo 0x1c aq rl rs2 rs1 3 rd

/-- The four bytes of an instruction, the first at the lowest address (20_memory.md R100). -/
def encodeBytes (i : Instr) : List Byte :=
  let w := encode i
  [w.extractLsb' 0 8, w.extractLsb' 8 8, w.extractLsb' 16 8, w.extractLsb' 24 8]

/-! ## The opcode table as data (30_encoding.md R183), the rows of spec/opcode_table.json -/

/-- One row: its mnemonic, its `match` and its `mask`. -/
structure OpcodeRow where
  mnemonic : String
  value    : BitVec 32
  mask     : BitVec 32
  deriving DecidableEq, Repr

/-- `(w & r.mask) == r.match` (30_encoding.md R183). -/
def OpcodeRow.matchesWord (r : OpcodeRow) (w : BitVec 32) : Bool := w &&& r.mask == r.value

def opcodeRowsBase : List OpcodeRow := [
  ⟨"lui", 0x00000037, 0x0000007f⟩,
  ⟨"auipc", 0x00000017, 0x0000007f⟩,
  ⟨"jal", 0x0000006f, 0x0000007f⟩,
  ⟨"jalr", 0x00000067, 0x0000707f⟩,
  ⟨"beq", 0x00000063, 0x0000707f⟩,
  ⟨"bne", 0x00001063, 0x0000707f⟩,
  ⟨"blt", 0x00004063, 0x0000707f⟩,
  ⟨"bge", 0x00005063, 0x0000707f⟩,
  ⟨"bltu", 0x00006063, 0x0000707f⟩,
  ⟨"bgeu", 0x00007063, 0x0000707f⟩]

def opcodeRowsLoadStore : List OpcodeRow := [
  ⟨"lb", 0x00000003, 0x0000707f⟩,
  ⟨"lh", 0x00001003, 0x0000707f⟩,
  ⟨"lw", 0x00002003, 0x0000707f⟩,
  ⟨"ld", 0x00003003, 0x0000707f⟩,
  ⟨"lbu", 0x00004003, 0x0000707f⟩,
  ⟨"lhu", 0x00005003, 0x0000707f⟩,
  ⟨"lwu", 0x00006003, 0x0000707f⟩,
  ⟨"sb", 0x00000023, 0x0000707f⟩,
  ⟨"sh", 0x00001023, 0x0000707f⟩,
  ⟨"sw", 0x00002023, 0x0000707f⟩,
  ⟨"sd", 0x00003023, 0x0000707f⟩]

def opcodeRowsInteger : List OpcodeRow := [
  ⟨"addi", 0x00000013, 0x0000707f⟩,
  ⟨"slti", 0x00002013, 0x0000707f⟩,
  ⟨"sltiu", 0x00003013, 0x0000707f⟩,
  ⟨"xori", 0x00004013, 0x0000707f⟩,
  ⟨"ori", 0x00006013, 0x0000707f⟩,
  ⟨"andi", 0x00007013, 0x0000707f⟩,
  ⟨"slli", 0x00001013, 0xfc00707f⟩,
  ⟨"srli", 0x00005013, 0xfc00707f⟩,
  ⟨"srai", 0x40005013, 0xfc00707f⟩,
  ⟨"add", 0x00000033, 0xfe00707f⟩,
  ⟨"sub", 0x40000033, 0xfe00707f⟩,
  ⟨"sll", 0x00001033, 0xfe00707f⟩,
  ⟨"slt", 0x00002033, 0xfe00707f⟩,
  ⟨"sltu", 0x00003033, 0xfe00707f⟩,
  ⟨"xor", 0x00004033, 0xfe00707f⟩,
  ⟨"srl", 0x00005033, 0xfe00707f⟩,
  ⟨"sra", 0x40005033, 0xfe00707f⟩,
  ⟨"or", 0x00006033, 0xfe00707f⟩,
  ⟨"and", 0x00007033, 0xfe00707f⟩]

def opcodeRowsWord : List OpcodeRow := [
  ⟨"addiw", 0x0000001b, 0x0000707f⟩,
  ⟨"slliw", 0x0000101b, 0xfe00707f⟩,
  ⟨"srliw", 0x0000501b, 0xfe00707f⟩,
  ⟨"sraiw", 0x4000501b, 0xfe00707f⟩,
  ⟨"addw", 0x0000003b, 0xfe00707f⟩,
  ⟨"subw", 0x4000003b, 0xfe00707f⟩,
  ⟨"sllw", 0x0000103b, 0xfe00707f⟩,
  ⟨"srlw", 0x0000503b, 0xfe00707f⟩,
  ⟨"sraw", 0x4000503b, 0xfe00707f⟩]

def opcodeRowsMulDiv : List OpcodeRow := [
  ⟨"mul", 0x02000033, 0xfe00707f⟩,
  ⟨"mulh", 0x02001033, 0xfe00707f⟩,
  ⟨"mulhsu", 0x02002033, 0xfe00707f⟩,
  ⟨"mulhu", 0x02003033, 0xfe00707f⟩,
  ⟨"div", 0x02004033, 0xfe00707f⟩,
  ⟨"divu", 0x02005033, 0xfe00707f⟩,
  ⟨"rem", 0x02006033, 0xfe00707f⟩,
  ⟨"remu", 0x02007033, 0xfe00707f⟩,
  ⟨"mulw", 0x0200003b, 0xfe00707f⟩,
  ⟨"divw", 0x0200403b, 0xfe00707f⟩,
  ⟨"divuw", 0x0200503b, 0xfe00707f⟩,
  ⟨"remw", 0x0200603b, 0xfe00707f⟩,
  ⟨"remuw", 0x0200703b, 0xfe00707f⟩]

def opcodeRowsSystem : List OpcodeRow := [
  ⟨"fence", 0x0000000f, 0x0000707f⟩,
  ⟨"fence.i", 0x0000100f, 0x0000707f⟩,
  ⟨"ecall", 0x00000073, 0xfff0707f⟩,
  ⟨"ebreak", 0x00100073, 0xfff0707f⟩,
  ⟨"sret", 0x10200073, 0xfff0707f⟩,
  ⟨"mret", 0x30200073, 0xfff0707f⟩,
  ⟨"wfi", 0x10500073, 0xfff0707f⟩,
  ⟨"sfence.vma", 0x12000073, 0xfe00707f⟩,
  ⟨"csrrw", 0x00001073, 0x0000707f⟩,
  ⟨"csrrs", 0x00002073, 0x0000707f⟩,
  ⟨"csrrc", 0x00003073, 0x0000707f⟩,
  ⟨"csrrwi", 0x00005073, 0x0000707f⟩,
  ⟨"csrrsi", 0x00006073, 0x0000707f⟩,
  ⟨"csrrci", 0x00007073, 0x0000707f⟩]

def opcodeRowsAtomic : List OpcodeRow := [
  ⟨"lr.w", 0x1000202f, 0xf9f0707f⟩,
  ⟨"sc.w", 0x1800202f, 0xf800707f⟩,
  ⟨"amoswap.w", 0x0800202f, 0xf800707f⟩,
  ⟨"amoadd.w", 0x0000202f, 0xf800707f⟩,
  ⟨"amoxor.w", 0x2000202f, 0xf800707f⟩,
  ⟨"amoand.w", 0x6000202f, 0xf800707f⟩,
  ⟨"amoor.w", 0x4000202f, 0xf800707f⟩,
  ⟨"amomin.w", 0x8000202f, 0xf800707f⟩,
  ⟨"amomax.w", 0xa000202f, 0xf800707f⟩,
  ⟨"amominu.w", 0xc000202f, 0xf800707f⟩,
  ⟨"amomaxu.w", 0xe000202f, 0xf800707f⟩,
  ⟨"lr.d", 0x1000302f, 0xf9f0707f⟩,
  ⟨"sc.d", 0x1800302f, 0xf800707f⟩,
  ⟨"amoswap.d", 0x0800302f, 0xf800707f⟩,
  ⟨"amoadd.d", 0x0000302f, 0xf800707f⟩,
  ⟨"amoxor.d", 0x2000302f, 0xf800707f⟩,
  ⟨"amoand.d", 0x6000302f, 0xf800707f⟩,
  ⟨"amoor.d", 0x4000302f, 0xf800707f⟩,
  ⟨"amomin.d", 0x8000302f, 0xf800707f⟩,
  ⟨"amomax.d", 0xa000302f, 0xf800707f⟩,
  ⟨"amominu.d", 0xc000302f, 0xf800707f⟩,
  ⟨"amomaxu.d", 0xe000302f, 0xf800707f⟩]

/-- The 98 rows. -/
def opcodeTable : List OpcodeRow :=
  opcodeRowsBase ++ opcodeRowsLoadStore ++ opcodeRowsInteger ++ opcodeRowsWord ++ opcodeRowsMulDiv ++ opcodeRowsSystem ++ opcodeRowsAtomic

/-- The row each instruction stands for. -/
def Instr.row (i : Instr) : OpcodeRow :=
  match i with
  | .lui _ _ => ⟨"lui", 0x00000037, 0x0000007f⟩
  | .auipc _ _ => ⟨"auipc", 0x00000017, 0x0000007f⟩
  | .jal _ _ => ⟨"jal", 0x0000006f, 0x0000007f⟩
  | .jalr _ _ _ => ⟨"jalr", 0x00000067, 0x0000707f⟩
  | .beq _ _ _ => ⟨"beq", 0x00000063, 0x0000707f⟩
  | .bne _ _ _ => ⟨"bne", 0x00001063, 0x0000707f⟩
  | .blt _ _ _ => ⟨"blt", 0x00004063, 0x0000707f⟩
  | .bge _ _ _ => ⟨"bge", 0x00005063, 0x0000707f⟩
  | .bltu _ _ _ => ⟨"bltu", 0x00006063, 0x0000707f⟩
  | .bgeu _ _ _ => ⟨"bgeu", 0x00007063, 0x0000707f⟩
  | .lb _ _ _ => ⟨"lb", 0x00000003, 0x0000707f⟩
  | .lh _ _ _ => ⟨"lh", 0x00001003, 0x0000707f⟩
  | .lw _ _ _ => ⟨"lw", 0x00002003, 0x0000707f⟩
  | .ld _ _ _ => ⟨"ld", 0x00003003, 0x0000707f⟩
  | .lbu _ _ _ => ⟨"lbu", 0x00004003, 0x0000707f⟩
  | .lhu _ _ _ => ⟨"lhu", 0x00005003, 0x0000707f⟩
  | .lwu _ _ _ => ⟨"lwu", 0x00006003, 0x0000707f⟩
  | .sb _ _ _ => ⟨"sb", 0x00000023, 0x0000707f⟩
  | .sh _ _ _ => ⟨"sh", 0x00001023, 0x0000707f⟩
  | .sw _ _ _ => ⟨"sw", 0x00002023, 0x0000707f⟩
  | .sd _ _ _ => ⟨"sd", 0x00003023, 0x0000707f⟩
  | .addi _ _ _ => ⟨"addi", 0x00000013, 0x0000707f⟩
  | .slti _ _ _ => ⟨"slti", 0x00002013, 0x0000707f⟩
  | .sltiu _ _ _ => ⟨"sltiu", 0x00003013, 0x0000707f⟩
  | .xori _ _ _ => ⟨"xori", 0x00004013, 0x0000707f⟩
  | .ori _ _ _ => ⟨"ori", 0x00006013, 0x0000707f⟩
  | .andi _ _ _ => ⟨"andi", 0x00007013, 0x0000707f⟩
  | .slli _ _ _ => ⟨"slli", 0x00001013, 0xfc00707f⟩
  | .srli _ _ _ => ⟨"srli", 0x00005013, 0xfc00707f⟩
  | .srai _ _ _ => ⟨"srai", 0x40005013, 0xfc00707f⟩
  | .add _ _ _ => ⟨"add", 0x00000033, 0xfe00707f⟩
  | .sub _ _ _ => ⟨"sub", 0x40000033, 0xfe00707f⟩
  | .sll _ _ _ => ⟨"sll", 0x00001033, 0xfe00707f⟩
  | .slt _ _ _ => ⟨"slt", 0x00002033, 0xfe00707f⟩
  | .sltu _ _ _ => ⟨"sltu", 0x00003033, 0xfe00707f⟩
  | .xor _ _ _ => ⟨"xor", 0x00004033, 0xfe00707f⟩
  | .srl _ _ _ => ⟨"srl", 0x00005033, 0xfe00707f⟩
  | .sra _ _ _ => ⟨"sra", 0x40005033, 0xfe00707f⟩
  | .or _ _ _ => ⟨"or", 0x00006033, 0xfe00707f⟩
  | .and _ _ _ => ⟨"and", 0x00007033, 0xfe00707f⟩
  | .addiw _ _ _ => ⟨"addiw", 0x0000001b, 0x0000707f⟩
  | .slliw _ _ _ => ⟨"slliw", 0x0000101b, 0xfe00707f⟩
  | .srliw _ _ _ => ⟨"srliw", 0x0000501b, 0xfe00707f⟩
  | .sraiw _ _ _ => ⟨"sraiw", 0x4000501b, 0xfe00707f⟩
  | .addw _ _ _ => ⟨"addw", 0x0000003b, 0xfe00707f⟩
  | .subw _ _ _ => ⟨"subw", 0x4000003b, 0xfe00707f⟩
  | .sllw _ _ _ => ⟨"sllw", 0x0000103b, 0xfe00707f⟩
  | .srlw _ _ _ => ⟨"srlw", 0x0000503b, 0xfe00707f⟩
  | .sraw _ _ _ => ⟨"sraw", 0x4000503b, 0xfe00707f⟩
  | .mul _ _ _ => ⟨"mul", 0x02000033, 0xfe00707f⟩
  | .mulh _ _ _ => ⟨"mulh", 0x02001033, 0xfe00707f⟩
  | .mulhsu _ _ _ => ⟨"mulhsu", 0x02002033, 0xfe00707f⟩
  | .mulhu _ _ _ => ⟨"mulhu", 0x02003033, 0xfe00707f⟩
  | .div _ _ _ => ⟨"div", 0x02004033, 0xfe00707f⟩
  | .divu _ _ _ => ⟨"divu", 0x02005033, 0xfe00707f⟩
  | .rem _ _ _ => ⟨"rem", 0x02006033, 0xfe00707f⟩
  | .remu _ _ _ => ⟨"remu", 0x02007033, 0xfe00707f⟩
  | .mulw _ _ _ => ⟨"mulw", 0x0200003b, 0xfe00707f⟩
  | .divw _ _ _ => ⟨"divw", 0x0200403b, 0xfe00707f⟩
  | .divuw _ _ _ => ⟨"divuw", 0x0200503b, 0xfe00707f⟩
  | .remw _ _ _ => ⟨"remw", 0x0200603b, 0xfe00707f⟩
  | .remuw _ _ _ => ⟨"remuw", 0x0200703b, 0xfe00707f⟩
  | .fence _ _ _ _ _ => ⟨"fence", 0x0000000f, 0x0000707f⟩
  | .fenceI _ _ _ => ⟨"fence.i", 0x0000100f, 0x0000707f⟩
  | .ecall _ _ => ⟨"ecall", 0x00000073, 0xfff0707f⟩
  | .ebreak _ _ => ⟨"ebreak", 0x00100073, 0xfff0707f⟩
  | .sret _ _ => ⟨"sret", 0x10200073, 0xfff0707f⟩
  | .mret _ _ => ⟨"mret", 0x30200073, 0xfff0707f⟩
  | .wfi _ _ => ⟨"wfi", 0x10500073, 0xfff0707f⟩
  | .sfenceVma _ _ _ => ⟨"sfence.vma", 0x12000073, 0xfe00707f⟩
  | .csrrw _ _ _ => ⟨"csrrw", 0x00001073, 0x0000707f⟩
  | .csrrs _ _ _ => ⟨"csrrs", 0x00002073, 0x0000707f⟩
  | .csrrc _ _ _ => ⟨"csrrc", 0x00003073, 0x0000707f⟩
  | .csrrwi _ _ _ => ⟨"csrrwi", 0x00005073, 0x0000707f⟩
  | .csrrsi _ _ _ => ⟨"csrrsi", 0x00006073, 0x0000707f⟩
  | .csrrci _ _ _ => ⟨"csrrci", 0x00007073, 0x0000707f⟩
  | .lrW _ _ _ _ => ⟨"lr.w", 0x1000202f, 0xf9f0707f⟩
  | .lrD _ _ _ _ => ⟨"lr.d", 0x1000302f, 0xf9f0707f⟩
  | .scW _ _ _ _ _ => ⟨"sc.w", 0x1800202f, 0xf800707f⟩
  | .scD _ _ _ _ _ => ⟨"sc.d", 0x1800302f, 0xf800707f⟩
  | .amoswapW _ _ _ _ _ => ⟨"amoswap.w", 0x0800202f, 0xf800707f⟩
  | .amoaddW _ _ _ _ _ => ⟨"amoadd.w", 0x0000202f, 0xf800707f⟩
  | .amoxorW _ _ _ _ _ => ⟨"amoxor.w", 0x2000202f, 0xf800707f⟩
  | .amoandW _ _ _ _ _ => ⟨"amoand.w", 0x6000202f, 0xf800707f⟩
  | .amoorW _ _ _ _ _ => ⟨"amoor.w", 0x4000202f, 0xf800707f⟩
  | .amominW _ _ _ _ _ => ⟨"amomin.w", 0x8000202f, 0xf800707f⟩
  | .amomaxW _ _ _ _ _ => ⟨"amomax.w", 0xa000202f, 0xf800707f⟩
  | .amominuW _ _ _ _ _ => ⟨"amominu.w", 0xc000202f, 0xf800707f⟩
  | .amomaxuW _ _ _ _ _ => ⟨"amomaxu.w", 0xe000202f, 0xf800707f⟩
  | .amoswapD _ _ _ _ _ => ⟨"amoswap.d", 0x0800302f, 0xf800707f⟩
  | .amoaddD _ _ _ _ _ => ⟨"amoadd.d", 0x0000302f, 0xf800707f⟩
  | .amoxorD _ _ _ _ _ => ⟨"amoxor.d", 0x2000302f, 0xf800707f⟩
  | .amoandD _ _ _ _ _ => ⟨"amoand.d", 0x6000302f, 0xf800707f⟩
  | .amoorD _ _ _ _ _ => ⟨"amoor.d", 0x4000302f, 0xf800707f⟩
  | .amominD _ _ _ _ _ => ⟨"amomin.d", 0x8000302f, 0xf800707f⟩
  | .amomaxD _ _ _ _ _ => ⟨"amomax.d", 0xa000302f, 0xf800707f⟩
  | .amominuD _ _ _ _ _ => ⟨"amominu.d", 0xc000302f, 0xf800707f⟩
  | .amomaxuD _ _ _ _ _ => ⟨"amomaxu.d", 0xe000302f, 0xf800707f⟩

/-! ## The host's entry -/

/-- The instruction the decoder of the reference configuration reads from an instruction whose bits are `w`, bit 0 the
least significant bit of the first byte. Every row is 32 bits; bits above `nbits` are 0. -/
def decodeTableWord (nbits w : Nat) : Option Instr :=
  let v := BitVec.ofNat 32 (w % 2 ^ nbits)
  match decodeBytes Config.reference.hasM [v.extractLsb' 0 8, v.extractLsb' 8 8, v.extractLsb' 16 8, v.extractLsb' 24 8] with
  | .ok (i, _) => some i
  | .error _ => none

end Sys2Proof
end

