-- ==== Sys2Proof/Machine/Bus.lean ====
section
/-! DEFINITION. The bus router and the device registers behind it (spec 20_memory.md R103 to R115; 60_exceptions.md R500
to R541). -/

namespace Sys2Proof.Machine

/-- Where an address lies, with its offset there (20_memory.md R105). -/
inductive Region where
  | clint (off : Nat)
  | plic (off : Nat)
  | uart (off : Nat)
  | virtio (off : Nat)
  | dram (off : Nat)
  | unmapped
  deriving DecidableEq, Repr

/-- `Region(pa)` (20_memory.md R105): the device windows in order, then DRAM. Only the start address counts. -/
def regionOf (c : Config) (pa : Nat) : Region :=
  if c.clint.contains pa then .clint (pa - c.clint.base)
  else if c.plic.contains pa then .plic (pa - c.plic.base)
  else if c.uart.contains pa then .uart (pa - c.uart.base)
  else if c.virtio.contains pa then .virtio (pa - c.virtio.base)
  else if c.dramBase ≤ pa then .dram (pa - c.dramBase)
  else .unmapped

/-! ## Timer unit (60_exceptions.md R500, R501) -/

def Clint.load (c : Clint) (off : Nat) : Word :=
  if off = 0x4000 then c.mtimecmp else if off = 0xBFF8 then c.mtime else 0

def Clint.store (c : Clint) (off : Nat) (v : Word) : Clint :=
  if off = 0x4000 then { c with mtimecmp := v } else if off = 0xBFF8 then { c with mtime := v } else c

/-! ## Interrupt controller (60_exceptions.md R510, R511) -/

def Plic.load (p : Plic) (off : Nat) : BitVec 32 :=
  if off = 0x1000 then p.pending else if off = 0x2080 then p.senable
  else if off = 0x201000 then p.spriority else if off = 0x201004 then p.sclaim else 0

def Plic.store (p : Plic) (off : Nat) (v : BitVec 32) : Plic :=
  if off = 0x1000 then { p with pending := v } else if off = 0x2080 then { p with senable := v }
  else if off = 0x201000 then { p with spriority := v } else if off = 0x201004 then { p with sclaim := v } else p

/-! ## Console (60_exceptions.md R520 to R531) -/

/-- A byte of the console's register file. -/
def Uart.reg (u : Uart) (off : Nat) : Byte := Memory.read u.regs off

def Uart.setReg (u : Uart) (off : Nat) (b : Byte) : Uart := { u with regs := Memory.write u.regs off b }

/-- The line-status register (R521). -/
def Uart.lsr (u : Uart) : Byte := u.reg 5

/-- LSR bit 0, receive data ready (R521). -/
def Uart.dataReady (u : Uart) : Bool := u.lsr.getLsbD 0

/-- A load: RHR clears LSR bit 0, every other offset has no effect (R526, R520). -/
def Uart.afterLoad (u : Uart) (off : Nat) : Uart := if off = 0 then u.setReg 5 (u.lsr &&& ~~~1#8) else u

/-- `ConsoleInput(b)` (R531): the byte, the interrupt flag, and LSR bit 0. -/
def Uart.receive (u : Uart) (b : Byte) : Uart :=
  { (u.setReg 0 b).setReg 5 ((u.setReg 0 b).lsr ||| 1#8) with intr := true }

/-! ## Block device registers (60_exceptions.md R535 to R541) -/

def Virtio.load (v : Virtio) (off : Nat) : BitVec 32 :=
  if off = 0x000 then 0x74726976
  else if off = 0x004 then 1
  else if off = 0x008 then 2
  else if off = 0x00C then 0x554D4551
  else if off = 0x010 then 0
  else if off = 0x020 then v.driverFeatures
  else if off = 0x028 then v.guestPageSize
  else if off = 0x030 then v.queueSel
  else if off = 0x034 then 8
  else if off = 0x038 then v.queueNum
  else if off = 0x040 then v.queuePfn
  else if off = 0x050 then v.queueNotify
  else if off = 0x070 then v.status
  else 0

def Virtio.store (v : Virtio) (off : Nat) (w : BitVec 32) : Virtio :=
  if off = 0x020 then { v with driverFeatures := w }
  else if off = 0x028 then { v with guestPageSize := w }
  else if off = 0x030 then { v with queueSel := w }
  else if off = 0x038 then { v with queueNum := w }
  else if off = 0x040 then { v with queuePfn := w }
  else if off = 0x050 then { v with queueNotify := w }
  else if off = 0x070 then { v with status := w }
  else v

/-! ## The router (20_memory.md R103, R104) -/

/-- `BusLoad(pa, n, kind)`: the value, zero-extended, and the state after it (only an RHR read changes it). -/
def busLoad (s : State) (pa : Word) (n : Width) (k : AccessKind) : Except Exc (Word × State) :=
  match regionOf s.cfg pa.toNat with
  | .unmapped => .error k.accessFault
  | .dram off =>
    if off + n.bytes ≤ s.cfg.dramSize then .ok (Memory.readLE s.mem pa.toNat n.bytes, s) else .error k.accessFault
  | .clint off => if n = .double then .ok (s.clint.load off, s) else .error k.accessFault
  | .plic off => if n = .word then .ok ((s.plic.load off).setWidth 64, s) else .error k.accessFault
  | .uart off =>
    if n = .byte then .ok ((s.uart.reg off).setWidth 64, s.setUart (s.uart.afterLoad off)) else .error k.accessFault
  | .virtio off => if n = .word then .ok ((s.virtio.load off).setWidth 64, s) else .error k.accessFault

/-- A store of byte `b` to the console: THR emits it, every other offset stores it (60_exceptions.md R527, R528). -/
def uartStore (s : State) (off : Nat) (b : Byte) : State :=
  if off = 0 then s.setOut (s.out ++ [b]) else s.setUart (s.uart.setReg off b)

/-- `BusStore(pa, n, v, kind)`: stores the low `8n` bits of `v`; a store that raises writes nothing. -/
def busStore (s : State) (pa : Word) (n : Width) (v : Word) (k : AccessKind) : Except Exc State :=
  match regionOf s.cfg pa.toNat with
  | .unmapped => .error k.accessFault
  | .dram off =>
    if off + n.bytes ≤ s.cfg.dramSize then .ok (s.setMem (Memory.writeLE s.mem pa.toNat n.bytes v))
    else .error k.accessFault
  | .clint off => if n = .double then .ok (s.setClint (s.clint.store off v)) else .error k.accessFault
  | .plic off => if n = .word then .ok (s.setPlic (s.plic.store off (v.setWidth 32))) else .error k.accessFault
  | .uart off => if n = .byte then .ok (uartStore s off (v.setWidth 8)) else .error k.accessFault
  | .virtio off => if n = .word then .ok (s.setVirtio (s.virtio.store off (v.setWidth 32))) else .error k.accessFault

end Sys2Proof.Machine
end

