-- ==== Sys2Proof/Machine/Translate.lean ====
section
/-! DEFINITION. Sv39 address translation (spec 20_memory.md R120 to R131). -/

namespace Sys2Proof.Machine

/-- VPN[i] of a virtual address (R121); bits 63:39 are not looked at. -/
def vpn (va : Word) (i : Nat) : BitVec 9 := va.extractLsb' (12 + 9 * i) 9

/-- V, R, W, X of a page-table entry (R122). -/
def pteV (pte : Word) : Bool := pte.getLsbD 0
def pteR (pte : Word) : Bool := pte.getLsbD 1
def pteW (pte : Word) : Bool := pte.getLsbD 2
def pteX (pte : Word) : Bool := pte.getLsbD 3

/-- An invalid entry, or the reserved encoding W without R (R126). -/
def pteFaults (pte : Word) : Bool := !pteV pte || (!pteR pte && pteW pte)

/-- A leaf has R or X (R125). -/
def pteLeaf (pte : Word) : Bool := pteR pte || pteX pte

/-- `Reconstruct(pte, i, va)` (R127): below the leaf's level the address bits come from `va`. -/
def reconstruct (pte : Word) (i : Nat) (va : Word) : Word :=
  let ppn0 := pte.extractLsb' 10 9
  let ppn1 := pte.extractLsb' 19 9
  let ppn2 := pte.extractLsb' 28 26
  let off := va.extractLsb' 0 12
  match i with
  | 0 => (ppn2 ++ ppn1 ++ ppn0 ++ off).setWidth 64
  | 1 => (ppn2 ++ ppn1 ++ vpn va 0 ++ off).setWidth 64
  | _ => (ppn2 ++ vpn va 1 ++ vpn va 0 ++ off).setWidth 64

/-- The table an entry points to (R123). -/
def nextTable (c : Config) (pte : Word) : Word :=
  BitVec.ofNat 64 ((pte.extractLsb' 10 44).toNat * c.pageSize)

/-- The walk from table `a` at level `levels - 1` down (R123). A page-table read is 8 bytes, so it changes no state
(notes/assumptions/14.md); where it fails, the fault is of the kind being translated (R126). -/
def walk (s : State) (va : Word) (k : AccessKind) (levels : Nat) (a : Word) : Except Exc Word :=
  match levels with
  | 0 => .error k.pageFault
  | i + 1 =>
    match busLoad s (a + (vpn va i).setWidth 64 * 8) .double .load with
    | .error _ => .error k.accessFault
    | .ok (pte, _) =>
      if pteFaults pte then .error k.pageFault
      else if pteLeaf pte then .ok (reconstruct pte i va)
      else walk s va k i (nextTable s.cfg pte)

/-- `Translate(va, kind)` (R120, R124), in every mode. -/
def translate (s : State) (va : Word) (k : AccessKind) : Except Exc Word :=
  if s.paging then walk s va k 3 s.ptRoot else .ok va

end Sys2Proof.Machine
end

