-- ==== Sys2Proof/Machine/Operands.lean ====
section
/-! DEFINITION. The operand forms of the instructions (spec 30_encoding.md R163 to R171; 42_loads_stores.md R260, R268)
and which general registers each instruction reads. -/

namespace Sys2Proof.Machine

/-- A sign-extended 12-bit immediate (R163, R164). -/
def imm64 (imm : BitVec 12) : Word := imm.signExtend 64

/-- The U-immediate (R166): w[31:12] over twelve zeros, sign-extended. -/
def immU64 (imm : BitVec 20) : Word := (imm ++ 0#12).signExtend 64

/-- A zero-extended 5-bit immediate (R169). -/
def uimm64 (uimm : BitVec 5) : Word := uimm.setWidth 64

/-- `ea = x[rs1] + imm` (42_loads_stores.md R260, R268). -/
def State.ea (s : State) (rs1 : RegIdx) (imm : BitVec 12) : Word := s.reg rs1 + imm64 imm

/-- The amount of a 64-bit register shift: the low 6 bits (R168). -/
def shiftAmount6 (v : Word) : Nat := (v.extractLsb' 0 6).toNat

/-- The amount of a W register shift: the low 5 bits (R168). -/
def shiftAmount5 (v : Word) : Nat := (v.extractLsb' 0 5).toNat

/-- The low 32 bits of a register, `x[r][31:0]` (44_word_ops.md R330). -/
def low32 (v : Word) : BitVec 32 := v.setWidth 32

/-- `sext_8n(v)` for an access of `n` bytes (00_scope.md R23). -/
def signExtendFrom (n : Width) (v : Word) : Word :=
  match n with
  | .byte => (v.setWidth 8).signExtend 64
  | .half => (v.setWidth 16).signExtend 64
  | .word => (v.setWidth 32).signExtend 64
  | .double => v

/-- `zext_8n(v)` for an access of `n` bytes (00_scope.md R23). -/
def zeroExtendFrom (n : Width) (v : Word) : Word :=
  match n with
  | .byte => (v.setWidth 8).setWidth 64
  | .half => (v.setWidth 16).setWidth 64
  | .word => (v.setWidth 32).setWidth 64
  | .double => v

/-- The address is a multiple of the access size (48_atomic.md R412). -/
def alignedTo (n : Width) (a : Word) : Bool := decide (a.toNat % n.bytes = 0)

/-- A jump target is a multiple of 4 (41_control.md R231). -/
def targetAligned (t : Word) : Bool := t.extractLsb' 0 2 == 0#2

/-! ## The registers an instruction reads (notes/assumptions/12.md) -/

/-- `x[rs1]`, and `x[rs2]` where the rule comes to read it. -/
def readsOf (rs1 rs2 : RegIdx) (second : Bool) : List RegIdx := if second then [rs1, rs2] else [rs1]

/-- A store reads `x[rs2]` once its address is translated (42_loads_stores.md R268). -/
def State.storeReadsData (s : State) (rs1 : RegIdx) (imm : BitVec 12) : Bool :=
  match translate s (s.ea rs1 imm) .store with
  | .ok _ => true
  | .error _ => false

/-- SC reads `x[rs2]` only with an aligned, translated address that is the reservation (48_atomic.md R414). -/
def State.conditionalReadsData (s : State) (n : Width) (rs1 : RegIdx) : Bool :=
  alignedTo n (s.reg rs1) &&
    match translate s (s.reg rs1) .store with
    | .ok pa => decide (s.resv = some pa)
    | .error _ => false

/-- An AMO reads `x[rs2]` once its bus read has succeeded (48_atomic.md R420). -/
def State.amoReadsOperand (s : State) (n : Width) (rs1 : RegIdx) : Bool :=
  alignedTo n (s.reg rs1) &&
    match translate s (s.reg rs1) .store with
    | .error _ => false
    | .ok pa =>
      match busLoad s pa n .store with
      | .ok _ => true
      | .error _ => false

/-- The general registers an instruction reads in state `s`: where its rule traps or completes before it comes to
`x[rs2]`, that register is not among them. -/
def sources (i : Instr) (s : State) : List RegIdx :=
  match i with
  | .lui _ _ => []
  | .auipc _ _ => []
  | .jal _ _ => []
  | .jalr _ rs1 _ => [rs1]
  | .beq rs1 rs2 _ => [rs1, rs2]
  | .bne rs1 rs2 _ => [rs1, rs2]
  | .blt rs1 rs2 _ => [rs1, rs2]
  | .bge rs1 rs2 _ => [rs1, rs2]
  | .bltu rs1 rs2 _ => [rs1, rs2]
  | .bgeu rs1 rs2 _ => [rs1, rs2]
  | .lb _ rs1 _ => [rs1]
  | .lh _ rs1 _ => [rs1]
  | .lw _ rs1 _ => [rs1]
  | .ld _ rs1 _ => [rs1]
  | .lbu _ rs1 _ => [rs1]
  | .lhu _ rs1 _ => [rs1]
  | .lwu _ rs1 _ => [rs1]
  | .sb rs1 rs2 imm => readsOf rs1 rs2 (s.storeReadsData rs1 imm)
  | .sh rs1 rs2 imm => readsOf rs1 rs2 (s.storeReadsData rs1 imm)
  | .sw rs1 rs2 imm => readsOf rs1 rs2 (s.storeReadsData rs1 imm)
  | .sd rs1 rs2 imm => readsOf rs1 rs2 (s.storeReadsData rs1 imm)
  | .addi _ rs1 _ => [rs1]
  | .slti _ rs1 _ => [rs1]
  | .sltiu _ rs1 _ => [rs1]
  | .xori _ rs1 _ => [rs1]
  | .ori _ rs1 _ => [rs1]
  | .andi _ rs1 _ => [rs1]
  | .slli _ rs1 _ => [rs1]
  | .srli _ rs1 _ => [rs1]
  | .srai _ rs1 _ => [rs1]
  | .add _ rs1 rs2 => [rs1, rs2]
  | .sub _ rs1 rs2 => [rs1, rs2]
  | .sll _ rs1 rs2 => [rs1, rs2]
  | .slt _ rs1 rs2 => [rs1, rs2]
  | .sltu _ rs1 rs2 => [rs1, rs2]
  | .xor _ rs1 rs2 => [rs1, rs2]
  | .srl _ rs1 rs2 => [rs1, rs2]
  | .sra _ rs1 rs2 => [rs1, rs2]
  | .or _ rs1 rs2 => [rs1, rs2]
  | .and _ rs1 rs2 => [rs1, rs2]
  | .addiw _ rs1 _ => [rs1]
  | .slliw _ rs1 _ => [rs1]
  | .srliw _ rs1 _ => [rs1]
  | .sraiw _ rs1 _ => [rs1]
  | .addw _ rs1 rs2 => [rs1, rs2]
  | .subw _ rs1 rs2 => [rs1, rs2]
  | .sllw _ rs1 rs2 => [rs1, rs2]
  | .srlw _ rs1 rs2 => [rs1, rs2]
  | .sraw _ rs1 rs2 => [rs1, rs2]
  | .mul _ rs1 rs2 => [rs1, rs2]
  | .mulh _ rs1 rs2 => [rs1, rs2]
  | .mulhsu _ rs1 rs2 => [rs1, rs2]
  | .mulhu _ rs1 rs2 => [rs1, rs2]
  | .div _ rs1 rs2 => [rs1, rs2]
  | .divu _ rs1 rs2 => [rs1, rs2]
  | .rem _ rs1 rs2 => [rs1, rs2]
  | .remu _ rs1 rs2 => [rs1, rs2]
  | .mulw _ rs1 rs2 => [rs1, rs2]
  | .divw _ rs1 rs2 => [rs1, rs2]
  | .divuw _ rs1 rs2 => [rs1, rs2]
  | .remw _ rs1 rs2 => [rs1, rs2]
  | .remuw _ rs1 rs2 => [rs1, rs2]
  | .fence _ _ _ _ _ => []
  | .fenceI _ _ _ => []
  | .ecall _ _ => []
  | .ebreak _ _ => []
  | .sret _ _ => []
  | .mret _ _ => []
  | .wfi _ _ => []
  | .sfenceVma _ _ _ => []
  | .csrrw _ rs1 _ => [rs1]
  | .csrrs _ rs1 _ => [rs1]
  | .csrrc _ rs1 _ => [rs1]
  | .csrrwi _ _ _ => []
  | .csrrsi _ _ _ => []
  | .csrrci _ _ _ => []
  | .lrW _ rs1 _ _ => [rs1]
  | .lrD _ rs1 _ _ => [rs1]
  | .scW _ rs1 rs2 _ _ => readsOf rs1 rs2 (s.conditionalReadsData .word rs1)
  | .scD _ rs1 rs2 _ _ => readsOf rs1 rs2 (s.conditionalReadsData .double rs1)
  | .amoswapW _ rs1 rs2 _ _ => readsOf rs1 rs2 (s.amoReadsOperand .word rs1)
  | .amoaddW _ rs1 rs2 _ _ => readsOf rs1 rs2 (s.amoReadsOperand .word rs1)
  | .amoxorW _ rs1 rs2 _ _ => readsOf rs1 rs2 (s.amoReadsOperand .word rs1)
  | .amoandW _ rs1 rs2 _ _ => readsOf rs1 rs2 (s.amoReadsOperand .word rs1)
  | .amoorW _ rs1 rs2 _ _ => readsOf rs1 rs2 (s.amoReadsOperand .word rs1)
  | .amominW _ rs1 rs2 _ _ => readsOf rs1 rs2 (s.amoReadsOperand .word rs1)
  | .amomaxW _ rs1 rs2 _ _ => readsOf rs1 rs2 (s.amoReadsOperand .word rs1)
  | .amominuW _ rs1 rs2 _ _ => readsOf rs1 rs2 (s.amoReadsOperand .word rs1)
  | .amomaxuW _ rs1 rs2 _ _ => readsOf rs1 rs2 (s.amoReadsOperand .word rs1)
  | .amoswapD _ rs1 rs2 _ _ => readsOf rs1 rs2 (s.amoReadsOperand .double rs1)
  | .amoaddD _ rs1 rs2 _ _ => readsOf rs1 rs2 (s.amoReadsOperand .double rs1)
  | .amoxorD _ rs1 rs2 _ _ => readsOf rs1 rs2 (s.amoReadsOperand .double rs1)
  | .amoandD _ rs1 rs2 _ _ => readsOf rs1 rs2 (s.amoReadsOperand .double rs1)
  | .amoorD _ rs1 rs2 _ _ => readsOf rs1 rs2 (s.amoReadsOperand .double rs1)
  | .amominD _ rs1 rs2 _ _ => readsOf rs1 rs2 (s.amoReadsOperand .double rs1)
  | .amomaxD _ rs1 rs2 _ _ => readsOf rs1 rs2 (s.amoReadsOperand .double rs1)
  | .amominuD _ rs1 rs2 _ _ => readsOf rs1 rs2 (s.amoReadsOperand .double rs1)
  | .amomaxuD _ rs1 rs2 _ _ => readsOf rs1 rs2 (s.amoReadsOperand .double rs1)

/-- Every register the instruction reads has been written since reset, or `RESET_GPR_ZERO` gives it a value
(10_state.md R42). -/
def State.sourcesReadable (s : State) (i : Instr) : Bool :=
  s.cfg.resetGprZero || (sources i s).all s.isWritten

end Sys2Proof.Machine
end

