-- ==== Sys2Proof/Machine/Atomic.lean ====
section
/-! DEFINITION. Atomic memory operations (spec 48_atomic.md R410 to R439). `aq` and `rl` are ignored (R421). -/

namespace Sys2Proof.Machine

/-- The LR template (R413): alignment, translation, the read; then the reservation and `x[rd]`. -/
def loadReserved (n : Width) (rd rs1 : RegIdx) (s : State) : Result :=
  if alignedTo n (s.reg rs1) then
    match translate s (s.reg rs1) .load with
    | .error e => raise e s
    | .ok pa =>
      match busLoad s pa n .load with
      | .error e => raise e s
      | .ok (v, s') => .next ((s'.setResv (some pa)).setReg rd (signExtendFrom n v))
  else raise .loadAddressMisaligned s

/-- The SC template (R414): it stores exactly when the reservation is the translated address; `x[rd]` is 0 on success
and 1 on failure. -/
def storeConditional (n : Width) (rd rs1 rs2 : RegIdx) (s : State) : Result :=
  if alignedTo n (s.reg rs1) then
    match translate s (s.reg rs1) .store with
    | .error e => raise e s
    | .ok pa =>
      if s.resv = some pa then
        match busStore s pa n (s.reg rs2) .store with
        | .error e => raise e s
        | .ok s' => .next ((s'.setResv none).setReg rd 0)
      else .next ((s.setResv none).setReg rd 1)
  else raise .storeAmoAddressMisaligned s

/-- The AMO template (R420): read and write of one address in one step; `x[rd]` gets the prior value. -/
def readModifyWrite (n : Width) (op : Word → Word → Word) (rd rs1 rs2 : RegIdx) (s : State) : Result :=
  if alignedTo n (s.reg rs1) then
    match translate s (s.reg rs1) .store with
    | .error e => raise e s
    | .ok pa =>
      match busLoad s pa n .store with
      | .error e => raise e s
      | .ok (t, s') =>
        match busStore s' pa n (op t (s.reg rs2)) .store with
        | .error e => raise e s
        | .ok s'' => .next (s''.setReg rd (signExtendFrom n t))
  else raise .storeAmoAddressMisaligned s

/-- An operation on the low 32 bits of its operands (R420, "on n-byte values"). -/
def onWords (op : BitVec 32 → BitVec 32 → BitVec 32) (t b : Word) : Word := (op (low32 t) (low32 b)).setWidth 64

/-! The operations `Op(t, b)` (R422 to R439). -/

def amoSwap {w : Nat} (_t b : BitVec w) : BitVec w := b
def amoAdd {w : Nat} (t b : BitVec w) : BitVec w := t + b
def amoXor {w : Nat} (t b : BitVec w) : BitVec w := t ^^^ b
def amoAnd {w : Nat} (t b : BitVec w) : BitVec w := t &&& b
def amoOr {w : Nat} (t b : BitVec w) : BitVec w := t ||| b
def amoMin {w : Nat} (t b : BitVec w) : BitVec w := if t.sle b then t else b
def amoMax {w : Nat} (t b : BitVec w) : BitVec w := if b.sle t then t else b
def amoMinu {w : Nat} (t b : BitVec w) : BitVec w := if t.ule b then t else b
def amoMaxu {w : Nat} (t b : BitVec w) : BitVec w := if b.ule t then t else b

/-- LR.W (R415). -/
def execLrW (rd rs1 : RegIdx) (s : State) : Result := loadReserved .word rd rs1 s

/-- SC.W (R417). -/
def execScW (rd rs1 rs2 : RegIdx) (s : State) : Result := storeConditional .word rd rs1 rs2 s

/-- LR.D (R416). -/
def execLrD (rd rs1 : RegIdx) (s : State) : Result := loadReserved .double rd rs1 s

/-- SC.D (R418). -/
def execScD (rd rs1 rs2 : RegIdx) (s : State) : Result := storeConditional .double rd rs1 rs2 s

/-- AMOSWAP.W (R422). -/
def execAmoswapW (rd rs1 rs2 : RegIdx) (s : State) : Result := readModifyWrite .word (onWords amoSwap) rd rs1 rs2 s

/-- AMOADD.W (R423). -/
def execAmoaddW (rd rs1 rs2 : RegIdx) (s : State) : Result := readModifyWrite .word (onWords amoAdd) rd rs1 rs2 s

/-- AMOXOR.W (R424). -/
def execAmoxorW (rd rs1 rs2 : RegIdx) (s : State) : Result := readModifyWrite .word (onWords amoXor) rd rs1 rs2 s

/-- AMOAND.W (R425). -/
def execAmoandW (rd rs1 rs2 : RegIdx) (s : State) : Result := readModifyWrite .word (onWords amoAnd) rd rs1 rs2 s

/-- AMOOR.W (R426). -/
def execAmoorW (rd rs1 rs2 : RegIdx) (s : State) : Result := readModifyWrite .word (onWords amoOr) rd rs1 rs2 s

/-- AMOMIN.W (R427). -/
def execAmominW (rd rs1 rs2 : RegIdx) (s : State) : Result := readModifyWrite .word (onWords amoMin) rd rs1 rs2 s

/-- AMOMAX.W (R428). -/
def execAmomaxW (rd rs1 rs2 : RegIdx) (s : State) : Result := readModifyWrite .word (onWords amoMax) rd rs1 rs2 s

/-- AMOMINU.W (R429). -/
def execAmominuW (rd rs1 rs2 : RegIdx) (s : State) : Result := readModifyWrite .word (onWords amoMinu) rd rs1 rs2 s

/-- AMOMAXU.W (R430). -/
def execAmomaxuW (rd rs1 rs2 : RegIdx) (s : State) : Result := readModifyWrite .word (onWords amoMaxu) rd rs1 rs2 s

/-- AMOSWAP.D (R431). -/
def execAmoswapD (rd rs1 rs2 : RegIdx) (s : State) : Result := readModifyWrite .double amoSwap rd rs1 rs2 s

/-- AMOADD.D (R432). -/
def execAmoaddD (rd rs1 rs2 : RegIdx) (s : State) : Result := readModifyWrite .double amoAdd rd rs1 rs2 s

/-- AMOXOR.D (R433). -/
def execAmoxorD (rd rs1 rs2 : RegIdx) (s : State) : Result := readModifyWrite .double amoXor rd rs1 rs2 s

/-- AMOAND.D (R434). -/
def execAmoandD (rd rs1 rs2 : RegIdx) (s : State) : Result := readModifyWrite .double amoAnd rd rs1 rs2 s

/-- AMOOR.D (R435). -/
def execAmoorD (rd rs1 rs2 : RegIdx) (s : State) : Result := readModifyWrite .double amoOr rd rs1 rs2 s

/-- AMOMIN.D (R436). -/
def execAmominD (rd rs1 rs2 : RegIdx) (s : State) : Result := readModifyWrite .double amoMin rd rs1 rs2 s

/-- AMOMAX.D (R437). -/
def execAmomaxD (rd rs1 rs2 : RegIdx) (s : State) : Result := readModifyWrite .double amoMax rd rs1 rs2 s

/-- AMOMINU.D (R438). -/
def execAmominuD (rd rs1 rs2 : RegIdx) (s : State) : Result := readModifyWrite .double amoMinu rd rs1 rs2 s

/-- AMOMAXU.D (R439). -/
def execAmomaxuD (rd rs1 rs2 : RegIdx) (s : State) : Result := readModifyWrite .double amoMaxu rd rs1 rs2 s

end Sys2Proof.Machine
end

