-- ==== Sys2Proof/Machine/Control.lean ====
section
/-! DEFINITION. Upper immediates, jumps and branches (spec 41_control.md R230 to R244). During execute `pc` is `ipc + 4`
(00_scope.md R27). -/

namespace Sys2Proof.Machine

/-- Jumps to `t` and links `x[rd]` with `ipc + 4`; a target that is not a multiple of 4 raises before anything is
written (R231). -/
def jumpAndLink (rd : RegIdx) (t : Word) (s : State) : Result :=
  if targetAligned t then .next ((s.setPc t).setReg rd s.pc) else raise .instructionAddressMisaligned s

/-- The branch template (R236). -/
def branchIf (c : Bool) (off : BitVec 13) (s : State) : Result :=
  if c then
    if targetAligned (s.ipc + off.signExtend 64) then .next (s.setPc (s.ipc + off.signExtend 64))
    else raise .instructionAddressMisaligned s
  else .next s

/-- LUI (R232). -/
def execLui (rd : RegIdx) (imm : BitVec 20) (s : State) : Result := .next (s.setReg rd (immU64 imm))

/-- AUIPC (R233). -/
def execAuipc (rd : RegIdx) (imm : BitVec 20) (s : State) : Result := .next (s.setReg rd (s.ipc + immU64 imm))

/-- JAL (R234). -/
def execJal (rd : RegIdx) (off : BitVec 21) (s : State) : Result := jumpAndLink rd (s.ipc + off.signExtend 64) s

/-- JALR (R235): bit 0 of the sum is cleared. -/
def execJalr (rd rs1 : RegIdx) (imm : BitVec 12) (s : State) : Result :=
  jumpAndLink rd (s.ea rs1 imm &&& ~~~1#64) s

/-- BEQ (R237). -/
def execBeq (rs1 rs2 : RegIdx) (off : BitVec 13) (s : State) : Result := branchIf (s.reg rs1 == s.reg rs2) off s

/-- BNE (R238). -/
def execBne (rs1 rs2 : RegIdx) (off : BitVec 13) (s : State) : Result := branchIf (s.reg rs1 != s.reg rs2) off s

/-- BLT, signed (R239). -/
def execBlt (rs1 rs2 : RegIdx) (off : BitVec 13) (s : State) : Result := branchIf ((s.reg rs1).slt (s.reg rs2)) off s

/-- BGE, signed (R240). -/
def execBge (rs1 rs2 : RegIdx) (off : BitVec 13) (s : State) : Result := branchIf (!(s.reg rs1).slt (s.reg rs2)) off s

/-- BLTU, unsigned (R241). -/
def execBltu (rs1 rs2 : RegIdx) (off : BitVec 13) (s : State) : Result := branchIf ((s.reg rs1).ult (s.reg rs2)) off s

/-- BGEU, unsigned (R242). -/
def execBgeu (rs1 rs2 : RegIdx) (off : BitVec 13) (s : State) : Result := branchIf (!(s.reg rs1).ult (s.reg rs2)) off s

end Sys2Proof.Machine
end

