-- ==== Sys2Proof/Machine/Csrs.lean ====
section
/-! DEFINITION. CSR instructions (spec 47_csr.md R390 to R400). -/

namespace Sys2Proof.Machine

/-- The template (R390): the CSR is read, then written with `new` of its prior value, and `x[rd]` gets the prior value.
The write always happens. -/
def readModifyCsr (rd : RegIdx) (csr : CsrNum) (new : Word → Word) (s : State) : Result :=
  .next ((s.csrWrite csr (new (s.csrRead csr))).setReg rd (s.csrRead csr))

/-- CSRRW (R391). -/
def execCsrrw (rd rs1 : RegIdx) (csr : CsrNum) (s : State) : Result :=
  readModifyCsr rd csr (fun _ => s.reg rs1) s

/-- CSRRS (R392). -/
def execCsrrs (rd rs1 : RegIdx) (csr : CsrNum) (s : State) : Result :=
  readModifyCsr rd csr (fun t => t ||| s.reg rs1) s

/-- CSRRC (R393). -/
def execCsrrc (rd rs1 : RegIdx) (csr : CsrNum) (s : State) : Result :=
  readModifyCsr rd csr (fun t => t &&& ~~~s.reg rs1) s

/-- CSRRWI (R394). -/
def execCsrrwi (rd : RegIdx) (uimm : BitVec 5) (csr : CsrNum) (s : State) : Result :=
  readModifyCsr rd csr (fun _ => uimm64 uimm) s

/-- CSRRSI (R395). -/
def execCsrrsi (rd : RegIdx) (uimm : BitVec 5) (csr : CsrNum) (s : State) : Result :=
  readModifyCsr rd csr (fun t => t ||| uimm64 uimm) s

/-- CSRRCI (R396). -/
def execCsrrci (rd : RegIdx) (uimm : BitVec 5) (csr : CsrNum) (s : State) : Result :=
  readModifyCsr rd csr (fun t => t &&& ~~~uimm64 uimm) s

end Sys2Proof.Machine
end

