-- ==== Sys2Proof/Machine/IntegerOps.lean ====
section
/-! DEFINITION. Integer register-immediate and register-register operations (spec 43_integer_ops.md R290 to R309). -/

namespace Sys2Proof.Machine

/-- `x[rd] <- v`, the only write of these instructions (R290). -/
def writeResult (rd : RegIdx) (v : Word) (s : State) : Result := .next (s.setReg rd v)

/-- ADDI (R291). -/
def execAddi (rd rs1 : RegIdx) (imm : BitVec 12) (s : State) : Result :=
  writeResult rd (s.reg rs1 + imm64 imm) s

/-- SLTI (R292), signed. -/
def execSlti (rd rs1 : RegIdx) (imm : BitVec 12) (s : State) : Result :=
  writeResult rd (boolWord ((s.reg rs1).slt (imm64 imm))) s

/-- SLTIU (R293): the immediate is sign-extended, then compared unsigned. -/
def execSltiu (rd rs1 : RegIdx) (imm : BitVec 12) (s : State) : Result :=
  writeResult rd (boolWord ((s.reg rs1).ult (imm64 imm))) s

/-- XORI (R294). -/
def execXori (rd rs1 : RegIdx) (imm : BitVec 12) (s : State) : Result :=
  writeResult rd (s.reg rs1 ^^^ imm64 imm) s

/-- ORI (R295). -/
def execOri (rd rs1 : RegIdx) (imm : BitVec 12) (s : State) : Result :=
  writeResult rd (s.reg rs1 ||| imm64 imm) s

/-- ANDI (R296). -/
def execAndi (rd rs1 : RegIdx) (imm : BitVec 12) (s : State) : Result :=
  writeResult rd (s.reg rs1 &&& imm64 imm) s

/-- SLLI (R297). -/
def execSlli (rd rs1 : RegIdx) (shamt : BitVec 6) (s : State) : Result :=
  writeResult rd (s.reg rs1 <<< shamt.toNat) s

/-- SRLI (R298), logical. -/
def execSrli (rd rs1 : RegIdx) (shamt : BitVec 6) (s : State) : Result :=
  writeResult rd (s.reg rs1 >>> shamt.toNat) s

/-- SRAI (R299), arithmetic. -/
def execSrai (rd rs1 : RegIdx) (shamt : BitVec 6) (s : State) : Result :=
  writeResult rd ((s.reg rs1).sshiftRight shamt.toNat) s

/-- ADD (R300). -/
def execAdd (rd rs1 rs2 : RegIdx) (s : State) : Result :=
  writeResult rd (s.reg rs1 + s.reg rs2) s

/-- SUB (R301). -/
def execSub (rd rs1 rs2 : RegIdx) (s : State) : Result :=
  writeResult rd (s.reg rs1 - s.reg rs2) s

/-- SLL (R302). -/
def execSll (rd rs1 rs2 : RegIdx) (s : State) : Result :=
  writeResult rd (s.reg rs1 <<< shiftAmount6 (s.reg rs2)) s

/-- SLT (R303), signed. -/
def execSlt (rd rs1 rs2 : RegIdx) (s : State) : Result :=
  writeResult rd (boolWord ((s.reg rs1).slt (s.reg rs2))) s

/-- SLTU (R304), unsigned. -/
def execSltu (rd rs1 rs2 : RegIdx) (s : State) : Result :=
  writeResult rd (boolWord ((s.reg rs1).ult (s.reg rs2))) s

/-- XOR (R305). -/
def execXor (rd rs1 rs2 : RegIdx) (s : State) : Result :=
  writeResult rd (s.reg rs1 ^^^ s.reg rs2) s

/-- SRL (R306), logical. -/
def execSrl (rd rs1 rs2 : RegIdx) (s : State) : Result :=
  writeResult rd (s.reg rs1 >>> shiftAmount6 (s.reg rs2)) s

/-- SRA (R307), arithmetic. -/
def execSra (rd rs1 rs2 : RegIdx) (s : State) : Result :=
  writeResult rd ((s.reg rs1).sshiftRight (shiftAmount6 (s.reg rs2))) s

/-- OR (R308). -/
def execOr (rd rs1 rs2 : RegIdx) (s : State) : Result :=
  writeResult rd (s.reg rs1 ||| s.reg rs2) s

/-- AND (R309). -/
def execAnd (rd rs1 rs2 : RegIdx) (s : State) : Result :=
  writeResult rd (s.reg rs1 &&& s.reg rs2) s

end Sys2Proof.Machine
end

