-- ==== Sys2Proof/Machine/LoadStore.lean ====
section
/-! DEFINITION. Loads and stores (spec 42_loads_stores.md R260 to R273). -/

namespace Sys2Proof.Machine

/-- The load template (R260): translate, read the bus, extend; an exception leaves nothing of the load behind. -/
def loadInto (n : Width) (extend : Word → Word) (rd rs1 : RegIdx) (imm : BitVec 12) (s : State) : Result :=
  match translate s (s.ea rs1 imm) .load with
  | .error e => raise e s
  | .ok pa =>
    match busLoad s pa n .load with
    | .error e => raise e s
    | .ok (v, s') => .next (s'.setReg rd (extend v))

/-- The store template (R268). -/
def storeFrom (n : Width) (rs1 rs2 : RegIdx) (imm : BitVec 12) (s : State) : Result :=
  match translate s (s.ea rs1 imm) .store with
  | .error e => raise e s
  | .ok pa =>
    match busStore s pa n (s.reg rs2) .store with
    | .error e => raise e s
    | .ok s' => .next s'

/-- LB (R261). -/
def execLb (rd rs1 : RegIdx) (imm : BitVec 12) (s : State) : Result :=
  loadInto .byte (signExtendFrom .byte) rd rs1 imm s

/-- LH (R262). -/
def execLh (rd rs1 : RegIdx) (imm : BitVec 12) (s : State) : Result :=
  loadInto .half (signExtendFrom .half) rd rs1 imm s

/-- LW (R263). -/
def execLw (rd rs1 : RegIdx) (imm : BitVec 12) (s : State) : Result :=
  loadInto .word (signExtendFrom .word) rd rs1 imm s

/-- LD (R264). -/
def execLd (rd rs1 : RegIdx) (imm : BitVec 12) (s : State) : Result :=
  loadInto .double (zeroExtendFrom .double) rd rs1 imm s

/-- LBU (R265). -/
def execLbu (rd rs1 : RegIdx) (imm : BitVec 12) (s : State) : Result :=
  loadInto .byte (zeroExtendFrom .byte) rd rs1 imm s

/-- LHU (R266). -/
def execLhu (rd rs1 : RegIdx) (imm : BitVec 12) (s : State) : Result :=
  loadInto .half (zeroExtendFrom .half) rd rs1 imm s

/-- LWU (R267). -/
def execLwu (rd rs1 : RegIdx) (imm : BitVec 12) (s : State) : Result :=
  loadInto .word (zeroExtendFrom .word) rd rs1 imm s

/-- SB (R269). -/
def execSb (rs1 rs2 : RegIdx) (imm : BitVec 12) (s : State) : Result := storeFrom .byte rs1 rs2 imm s

/-- SH (R270). -/
def execSh (rs1 rs2 : RegIdx) (imm : BitVec 12) (s : State) : Result := storeFrom .half rs1 rs2 imm s

/-- SW (R271). -/
def execSw (rs1 rs2 : RegIdx) (imm : BitVec 12) (s : State) : Result := storeFrom .word rs1 rs2 imm s

/-- SD (R272). -/
def execSd (rs1 rs2 : RegIdx) (imm : BitVec 12) (s : State) : Result := storeFrom .double rs1 rs2 imm s

end Sys2Proof.Machine
end

