-- ==== Sys2Proof/Machine/WordOps.lean ====
section
/-! DEFINITION. 32-bit ("W") integer operations (spec 44_word_ops.md R330 to R339). -/

namespace Sys2Proof.Machine

/-- `x[rd] <- sext_32(r)` (R330). -/
def writeWord (rd : RegIdx) (r : BitVec 32) (s : State) : Result := writeResult rd (r.signExtend 64) s

/-- ADDIW (R331). -/
def execAddiw (rd rs1 : RegIdx) (imm : BitVec 12) (s : State) : Result := writeWord rd (low32 (s.reg rs1 + imm64 imm)) s

/-- SLLIW (R332). -/
def execSlliw (rd rs1 : RegIdx) (shamt : BitVec 5) (s : State) : Result :=
  writeWord rd (low32 (s.reg rs1) <<< shamt.toNat) s

/-- SRLIW (R333). -/
def execSrliw (rd rs1 : RegIdx) (shamt : BitVec 5) (s : State) : Result :=
  writeWord rd (low32 (s.reg rs1) >>> shamt.toNat) s

/-- SRAIW (R334). -/
def execSraiw (rd rs1 : RegIdx) (shamt : BitVec 5) (s : State) : Result :=
  writeWord rd ((low32 (s.reg rs1)).sshiftRight shamt.toNat) s

/-- ADDW (R335). -/
def execAddw (rd rs1 rs2 : RegIdx) (s : State) : Result :=
  writeWord rd (low32 (s.reg rs1 + s.reg rs2)) s

/-- SUBW (R336). -/
def execSubw (rd rs1 rs2 : RegIdx) (s : State) : Result :=
  writeWord rd (low32 (s.reg rs1 - s.reg rs2)) s

/-- SLLW (R337). -/
def execSllw (rd rs1 rs2 : RegIdx) (s : State) : Result :=
  writeWord rd (low32 (s.reg rs1) <<< shiftAmount5 (s.reg rs2)) s

/-- SRLW (R338). -/
def execSrlw (rd rs1 rs2 : RegIdx) (s : State) : Result :=
  writeWord rd (low32 (s.reg rs1) >>> shiftAmount5 (s.reg rs2)) s

/-- SRAW (R339). -/
def execSraw (rd rs1 rs2 : RegIdx) (s : State) : Result :=
  writeWord rd ((low32 (s.reg rs1)).sshiftRight (shiftAmount5 (s.reg rs2))) s

end Sys2Proof.Machine
end

