-- ==== Sys2Proof/Machine/MulDiv.lean ====
section
/-! DEFINITION. Multiply and divide (spec 45_muldiv.md R350 to R365). Division truncates toward zero (R351) and never
traps. -/

namespace Sys2Proof.Machine

/-- The high 64 bits of an exact product (R353 to R355). -/
def highHalf (p : Int) : Word := (BitVec.ofInt 128 p).extractLsb' 64 64

/-- The signed quotient with its corners (R356, R361): all ones for a zero divisor, the dividend on overflow. -/
def divSigned {w : Nat} (a b : BitVec w) : BitVec w :=
  if b = 0 then BitVec.allOnes w
  else if a = BitVec.intMin w ∧ b = BitVec.allOnes w then BitVec.intMin w
  else BitVec.ofInt w (a.toInt.tdiv b.toInt)

/-- The signed remainder with its corners (R358, R363): the dividend for a zero divisor, 0 on overflow. -/
def remSigned {w : Nat} (a b : BitVec w) : BitVec w :=
  if b = 0 then a
  else if a = BitVec.intMin w ∧ b = BitVec.allOnes w then 0
  else BitVec.ofInt w (a.toInt - b.toInt * a.toInt.tdiv b.toInt)

/-- The unsigned quotient (R357, R362): all ones for a zero divisor. -/
def divUnsigned {w : Nat} (a b : BitVec w) : BitVec w :=
  if b = 0 then BitVec.allOnes w else BitVec.ofNat w (a.toNat / b.toNat)

/-- The unsigned remainder (R359, R364): the dividend for a zero divisor. -/
def remUnsigned {w : Nat} (a b : BitVec w) : BitVec w :=
  if b = 0 then a else BitVec.ofNat w (a.toNat % b.toNat)

/-- MUL (R352), the low half. -/
def execMul (rd rs1 rs2 : RegIdx) (s : State) : Result :=
  writeResult rd (s.reg rs1 * s.reg rs2) s

/-- MULH (R353), signed by signed. -/
def execMulh (rd rs1 rs2 : RegIdx) (s : State) : Result :=
  writeResult rd (highHalf ((s.reg rs1).toInt * (s.reg rs2).toInt)) s

/-- MULHSU (R354), signed by unsigned. -/
def execMulhsu (rd rs1 rs2 : RegIdx) (s : State) : Result :=
  writeResult rd (highHalf ((s.reg rs1).toInt * ((s.reg rs2).toNat : Int))) s

/-- MULHU (R355), unsigned by unsigned. -/
def execMulhu (rd rs1 rs2 : RegIdx) (s : State) : Result :=
  writeResult rd (highHalf (((s.reg rs1).toNat : Int) * ((s.reg rs2).toNat : Int))) s

/-- DIV (R356). -/
def execDiv (rd rs1 rs2 : RegIdx) (s : State) : Result :=
  writeResult rd (divSigned (s.reg rs1) (s.reg rs2)) s

/-- DIVU (R357). -/
def execDivu (rd rs1 rs2 : RegIdx) (s : State) : Result :=
  writeResult rd (divUnsigned (s.reg rs1) (s.reg rs2)) s

/-- REM (R358). -/
def execRem (rd rs1 rs2 : RegIdx) (s : State) : Result :=
  writeResult rd (remSigned (s.reg rs1) (s.reg rs2)) s

/-- REMU (R359). -/
def execRemu (rd rs1 rs2 : RegIdx) (s : State) : Result :=
  writeResult rd (remUnsigned (s.reg rs1) (s.reg rs2)) s

/-- MULW (R360). -/
def execMulw (rd rs1 rs2 : RegIdx) (s : State) : Result :=
  writeWord rd (low32 (s.reg rs1) * low32 (s.reg rs2)) s

/-- DIVW (R361). -/
def execDivw (rd rs1 rs2 : RegIdx) (s : State) : Result :=
  writeWord rd (divSigned (low32 (s.reg rs1)) (low32 (s.reg rs2))) s

/-- DIVUW (R362). -/
def execDivuw (rd rs1 rs2 : RegIdx) (s : State) : Result :=
  writeWord rd (divUnsigned (low32 (s.reg rs1)) (low32 (s.reg rs2))) s

/-- REMW (R363). -/
def execRemw (rd rs1 rs2 : RegIdx) (s : State) : Result :=
  writeWord rd (remSigned (low32 (s.reg rs1)) (low32 (s.reg rs2))) s

/-- REMUW (R364). -/
def execRemuw (rd rs1 rs2 : RegIdx) (s : State) : Result :=
  writeWord rd (remUnsigned (low32 (s.reg rs1)) (low32 (s.reg rs2))) s

end Sys2Proof.Machine
end

