-- ==== Sys2Proof/Machine/System.lean ====
section
/-! DEFINITION. Fences, environment calls, trap return and privileged instructions (spec 46_system.md R370 to R379).
None checks the privilege mode (R378). -/

namespace Sys2Proof.Machine

/-- FENCE (R370): a no-op. -/
def execFence (s : State) : Result := .next s

/-- FENCE.I (R371): a no-op. -/
def execFenceI (s : State) : Result := .next s

/-- The cause of an environment call from a mode (R372). -/
def environmentCall (m : Mode) : Exc :=
  match m with
  | .user => .environmentCallFromU
  | .supervisor => .environmentCallFromS
  | .machine => .environmentCallFromM

/-- ECALL (R372). -/
def execEcall (s : State) : Result := raise (environmentCall s.mode) s

/-- EBREAK (R373). -/
def execEbreak (s : State) : Result := raise .breakpoint s

/-- SRET (R376). -/
def execSret (s : State) : Result := .next s.returnS

/-- MRET (R377): MPP = 2 names no mode and is a model fault (93_implementation_defined.md Part 1 item 1). -/
def execMret (s : State) : Result :=
  match Mode.ofBits (mppBits (s.csrRaw Csr.mstatus)) with
  | some m => .next (s.returnM m)
  | none => .fault .mretReservedMode

/-- WFI (R374): a no-op. -/
def execWfi (s : State) : Result := .next s

/-- SFENCE.VMA (R375): a no-op. -/
def execSfenceVma (s : State) : Result := .next s

end Sys2Proof.Machine
end

