-- ==== Sys2Proof/Machine/Disk.lean ====
section
/-! DEFINITION. The block device's disk-access protocol (spec 60_exceptions.md R542 to R548). All addresses are physical
and every guest-memory access goes through the bus; a bus fault is a model fault (R547). -/

namespace Sys2Proof.Machine

/-- A DMA read. -/
def dmaLoad (s : State) (pa : Word) (n : Width) : Except Fault (Word × State) :=
  match busLoad s pa n .load with
  | .ok r => .ok r
  | .error _ => .error (.virtioBus s)

/-- A DMA write. -/
def dmaStore (s : State) (pa : Word) (n : Width) (v : Word) : Except Fault State :=
  match busStore s pa n v .store with
  | .ok s' => .ok s'
  | .error _ => .error (.virtioBus s)

/-- The descriptor table's address: `queue_pfn × page` (R542). -/
def Virtio.descTable (v : Virtio) : Word := BitVec.ofNat 64 (v.queuePfn.toNat * v.guestPageSize.toNat)

/-- The used ring's address: `desc + page` (R542). -/
def Virtio.usedRing (v : Virtio) : Word := v.descTable + v.guestPageSize.setWidth 64

/-- What one request asks for: the data buffer, its length and direction, and the sector (R542). -/
structure DiskRequest where
  buf    : Word
  len    : Nat
  toDisk : Bool
  sector : Nat
  deriving DecidableEq, Repr

/-- The reads of the rings, the two descriptors and the request header (R542, R543). -/
def readRequest (s : State) : Except Fault (DiskRequest × State) := do
  let desc := s.virtio.descTable
  let avail := desc + 0x80
  let (idx, s) ← dmaLoad s (avail + 2) .half
  let (head, s) ← dmaLoad s (avail + 4 + BitVec.ofNat 64 (2 * ((idx.toNat + 7) % 8))) .half
  let d0 := desc + 16 * head
  let (hdr, s) ← dmaLoad s d0 .double
  let (nxt, s) ← dmaLoad s (d0 + 14) .half
  let d1 := desc + 16 * nxt
  let (buf, s) ← dmaLoad s d1 .double
  let (len, s) ← dmaLoad s (d1 + 8) .word
  let (flags, s) ← dmaLoad s (d1 + 12) .half
  let (sector, s) ← dmaLoad s (hdr + 8) .double
  return ({ buf := buf, len := len.toNat, toDisk := !flags.getLsbD 1, sector := sector.toNat }, s)

/-- One byte of the copy: to the guest, or to the disk (R542). -/
def copyByte (toDisk : Bool) (buf : Word) (off : Nat) (s : State) : Except Fault State :=
  if toDisk then
    match dmaLoad s buf .byte with
    | .error f => .error f
    | .ok (v, s') => .ok (s'.setDisk (Memory.write s'.disk off (v.setWidth 8)))
  else dmaStore s buf .byte ((Memory.read s.disk off).setWidth 64)

/-- The copy loop, in increasing order (R542). -/
def copyBytes (toDisk : Bool) (buf : Word) (off : Nat) (len : Nat) (s : State) : Except Fault State :=
  match len with
  | 0 => .ok s
  | n + 1 =>
    match copyByte toDisk buf off s with
    | .error f => .error f
    | .ok s' => copyBytes toDisk (buf + 1) (off + 1) n s'

/-- The range check, exact (notes/assumptions/10.md), and the copy (R542, R547). -/
def transfer (r : DiskRequest) (s : State) : Except Fault State :=
  if s.cfg.diskSize < r.sector * 512 + r.len then .error (.virtioRange s)
  else copyBytes r.toDisk r.buf (r.sector * 512) r.len s

/-- The completion: the id counter and `used.idx` (R542, R544). -/
def completeRequest (used : Word) (s : State) : Except Fault State :=
  let s' := s.setVirtio { s.virtio with vioId := s.virtio.vioId + 1 }
  dmaStore s' (used + 2) .half (BitVec.ofNat 64 (s'.virtio.vioId.toNat % 8))

/-- `DiskAccess()` (R542). -/
def diskAccess (s : State) : Except Fault State :=
  match readRequest s with
  | .error f => .error f
  | .ok (r, s1) =>
    match transfer r s1 with
    | .error f => .error f
    | .ok s2 => completeRequest s.virtio.usedRing s2

end Sys2Proof.Machine
end

