-- ==== Sys2Proof/Machine/Interrupts.lean ====
section
/-! DEFINITION. The interrupt check of phase B (spec 60_exceptions.md R450 to R453) and the console input agent (R531). -/

namespace Sys2Proof.Machine

/-- The current mode's global interrupt enable (R450); User is always enabled. -/
def State.interruptEnable (s : State) : Bool :=
  match s.mode with
  | .machine => mieBit (s.csrRaw Csr.mstatus)
  | .supervisor => sieBit (s.csrRaw Csr.sstatus)
  | .user => true

/-- A device's interrupt number in the claim register, and `mip.SEIP` (R451); number 0 announces nothing. -/
def State.announce (s : State) (irq : BitVec 32) : State :=
  if irq = 0 then s
  else (s.setPlic { s.plic with sclaim := irq }).setCsr Csr.mip (setBit (s.csrRaw Csr.mip) 9 true)

/-- The device poll (R451): the console first, else the block device, whose transfer runs here. -/
def pollDevices (s : State) : Except Fault State :=
  if s.uart.intr then .ok ((s.setUart { s.uart with intr := false }).announce s.cfg.uartIrq)
  else if s.virtio.queueNotify ≠ s.cfg.virtioNotifyIdle then
    match diskAccess (s.setVirtio { s.virtio with queueNotify := s.cfg.virtioNotifyIdle }) with
    | .error f => .error f
    | .ok s' => .ok (s'.announce s.cfg.virtioIrq)
  else .ok s

/-- `pend = mie & mip_eff` (R452, 10_state.md R54). -/
def State.pendingEnabled (s : State) : Word :=
  s.csrRaw Csr.mie &&& effectivePending (s.csrRaw Csr.mip) s.clint

/-- The selected interrupt: the first of the priority order that is pending and enabled (R452). -/
def selectInterrupt (s : State) : Option Interrupt :=
  Interrupt.priorityOrder.find? fun i => s.pendingEnabled.getLsbD i.code

/-- Clears the interrupt's bit of the stored `mip` and takes the trap (R452, R453). -/
def State.takeInterrupt (s : State) (i : Interrupt) : State :=
  (s.setCsr Csr.mip (setBit (s.csrRaw Csr.mip) i.code false)).takeTrap (.int i)

/-- `SelectAndDeliver()` (R452). -/
def selectAndDeliver (s : State) : State :=
  match selectInterrupt s with
  | some i => s.takeInterrupt i
  | none => s

/-- `InterruptCheck()` (R450). -/
def interruptCheck (s : State) : Result :=
  if s.interruptEnable then
    match pollDevices s with
    | .error f => .fault f
    | .ok s' => .next (selectAndDeliver s')
  else .next s

/-- One point where the console input agent may act (R531; 40_fetch_and_step.md R200): the next entry of the schedule.
A byte is delivered only while LSR bit 0 is 0; until then the agent holds it (notes/assumptions/6.md). -/
def consoleSlot (s : State) : State :=
  match s.input with
  | [] => s
  | none :: rest => s.setInput rest
  | some b :: rest => if s.uart.dataReady then s else (s.setUart (s.uart.receive b)).setInput rest

end Sys2Proof.Machine
end

