-- ==== Sys2Proof/Machine/Phases.lean ====
section
/-! DEFINITION. Fetch, execute and the two phases of a step (spec 40_fetch_and_step.md R200 to R209), and placing a word
where the next fetch reads it. -/

namespace Sys2Proof.Machine

/-- `Fetch(ipc)` (R201): a 4-byte bus read changes no state (R201, 20_memory.md R107). -/
def fetch (s : State) : Except Exc (BitVec 32) :=
  match translate s s.pc .fetch with
  | .error e => .error e
  | .ok pa =>
    match busLoad s pa .word .fetch with
    | .error e => .error e
    | .ok (v, _) => .ok (low32 v)

/-- Executes the fetched word `w` in a state whose pc is past it: an illegal word raises IllegalInstruction
(30_encoding.md R183, R185). With `RESET_GPR_ZERO = false` an instruction that comes to read a register never written
since reset is a model fault (40_fetch_and_step.md R209, 10_state.md R42): it makes no change before its reads. -/
def executeWord (w : BitVec 32) (s : State) : Result :=
  match decodeWord s.cfg.hasM w with
  | .error _ => raise .illegalInstruction s
  | .ok i => if s.sourcesReadable i then exec i s else .fault .unwrittenRegister

/-- Phase A (R200): the pc advances whether or not the fetch faults (R202). -/
def phaseA (s : State) : Result :=
  match fetch s with
  | .error e => raise e s.advance
  | .ok w => executeWord w s.advance

/-- Phase B (R200, R207), which is not run once the machine has halted (R206). -/
def phaseB (s : State) : Result := if s.halted then .next s else interruptCheck (consoleSlot s)

/-- One pass of the run loop (R200): the host may act before phase A and between the phases. -/
def runStep (s : State) : Result :=
  match phaseA (consoleSlot s) with
  | .next s' => phaseB s'
  | .fault f => .fault f
  | .refused r => .refused r

/-- The physical address the next fetch reads, where it is four bytes of DRAM. -/
def fetchPlace (s : State) : Option Nat :=
  match translate s s.pc .fetch with
  | .error _ => none
  | .ok pa =>
    match regionOf s.cfg pa.toNat with
    | .dram off => if off + 4 ≤ s.cfg.dramSize then some pa.toNat else none
    | _ => none

/-- `s` with word `w` stored where the next fetch reads. Where that is no DRAM, the pc and translation first return to
their reset values. -/
def placeWord (s : State) (w : BitVec 32) : State :=
  match fetchPlace s with
  | some a => s.setMem (Memory.writeLE s.mem a 4 (w.setWidth 64))
  | none =>
    let s' := (s.csrWrite Csr.satp 0).setPc (BitVec.ofNat 64 s.cfg.dramBase)
    s'.setMem (Memory.writeLE s'.mem s.cfg.dramBase 4 (w.setWidth 64))

end Sys2Proof.Machine
end

