-- ==== Sys2Proof/Machine/Step.lean ====
section
/-! DEFINITION. One step of the machine (spec 40_fetch_and_step.md R200, R206; 00_scope.md R21, R29). -/

namespace Sys2Proof.Machine

/-- A step: parameters that break 00_scope.md R21 are refused, a halted machine takes no step, else one pass of the run
loop. -/
def step (s : State) : Host.Outcome State Fault Refusal :=
  if s.cfg.admissible then
    if s.halted then .fault .halted else runStep s
  else .refused .inadmissibleParameters

/-- `s` with the instruction whose bits are `w` stored where `step` fetches next; bits above `nbits` are 0. -/
def State.withFetchWord (s : State) (nbits w : Nat) : State := placeWord s (BitVec.ofNat 32 (w % 2 ^ nbits))

end Sys2Proof.Machine
end

