-- ==== Sys2Proof/Safety.lean ====
section
/-! DEFINITION. The terms the statements use: frames (what an instruction leaves unchanged), what a delivered trap looks
like, invariants of the state, and numbers made of bytes. -/

namespace Sys2Proof.Safety

open Sys2Proof.Machine

/-! ## Frames -/

/-- The parameters, the mode, every CSR, the paging state, `halted` and the input schedule are the same. -/
structure SameSystem (s t : State) : Prop where
  cfg    : t.cfg = s.cfg
  mode   : t.mode = s.mode
  csr    : ∀ a, t.csrRaw a = s.csrRaw a
  paging : t.paging = s.paging
  ptRoot : t.ptRoot = s.ptRoot
  halted : t.halted = s.halted
  input  : t.input = s.input

/-- Every register of every device, the disk and the console output are the same. -/
structure SameDevices (s t : State) : Prop where
  clint  : t.clint = s.clint
  plic   : t.plic = s.plic
  uart   : t.uart = s.uart
  virtio : t.virtio = s.virtio
  disk   : ∀ k, Memory.read t.disk k = Memory.read s.disk k
  out    : t.out = s.out

/-- Every byte of memory reads as before. -/
def SameMemory (s t : State) : Prop := ∀ a, t.byte a = s.byte a

/-- Every general register reads as before, and none is newly written. -/
def SameRegs (s t : State) : Prop := ∀ r, t.reg r = s.reg r ∧ t.isWritten r = s.isWritten r

/-- Every general register but `rd` reads as before, and none but `rd` is newly written. -/
def SameRegsBut (rd : RegIdx) (s t : State) : Prop :=
  ∀ r, r ≠ rd → t.reg r = s.reg r ∧ t.isWritten r = s.isWritten r

/-- Nothing but general register `rd` differs. -/
structure OnlyReg (rd : RegIdx) (s t : State) : Prop where
  regs    : SameRegsBut rd s t
  pc      : t.pc = s.pc
  system  : SameSystem s t
  resv    : t.resv = s.resv
  memory  : SameMemory s t
  devices : SameDevices s t

/-- Nothing but general register `rd` and the pc differs. -/
structure OnlyRegAndPc (rd : RegIdx) (s t : State) : Prop where
  regs    : SameRegsBut rd s t
  system  : SameSystem s t
  resv    : t.resv = s.resv
  memory  : SameMemory s t
  devices : SameDevices s t

/-- Nothing but the pc differs. -/
structure OnlyPc (s t : State) : Prop where
  regs    : SameRegs s t
  system  : SameSystem s t
  resv    : t.resv = s.resv
  memory  : SameMemory s t
  devices : SameDevices s t

/-- Nothing but general register `rd` and the load reservation differs. -/
structure OnlyRegAndResv (rd : RegIdx) (s t : State) : Prop where
  regs    : SameRegsBut rd s t
  pc      : t.pc = s.pc
  system  : SameSystem s t
  memory  : SameMemory s t
  devices : SameDevices s t

/-- What `x[rd]` holds after `x[rd] <- v`: `x0` stays 0. -/
def written (rd : RegIdx) (v : Word) : Word := if rd = 0 then 0 else v

/-- `exec i` answers a next state in which `x[rd]` holds a value that meets `P` (0 where `rd` is `x0`) and nothing else
differs. -/
def Computes (i : Instr) (rd : RegIdx) (s : State) (P : Word → Prop) : Prop :=
  ∃ t v, exec i s = .next t ∧ P v ∧ t.reg rd = written rd v ∧ t.isWritten rd = true ∧ OnlyReg rd s t

/-! ## Numbers made of bytes (20_memory.md R100) -/

/-- The little-endian number in the `n` bytes from `a`. -/
def littleEndian (s : State) (a : Nat) : Nat → Nat
  | 0 => 0
  | n + 1 => (s.byte a).toNat + 256 * littleEndian s (a + 1) n

/-- Byte `k` of a value. -/
def byteOf (v : Word) (k : Nat) : Byte := v.extractLsb' (8 * k) 8

/-- The `n` bytes from `pa` are bytes of DRAM (20_memory.md R105, R106). -/
def InDram (s : State) (pa n : Nat) : Prop :=
  s.cfg.dramBase ≤ pa ∧ pa + n ≤ s.cfg.dramBase + s.cfg.dramSize

/-- In `t` the `n` bytes from `pa` are the low bytes of `v`, and every other byte of memory reads as in `s`. -/
def StoredAt (s t : State) (pa n : Nat) (v : Word) : Prop :=
  ∀ a, t.byte a = if pa ≤ a ∧ a < pa + n then byteOf v (a - pa) else s.byte a

/-! ## Delivered traps (60_exceptions.md R460 to R463) -/

/-- The vector target as R463 gives it. -/
def VectorTarget (tvec : Word) (code : Nat) (isInterrupt : Bool) (pc : Word) : Prop :=
  pc.toNat = (tvec.toNat / 2 * 2 + if isInterrupt ∧ tvec.toNat % 2 = 1 then 4 * code else 0) % 2 ^ 64

/-- Everything a trap leaves alone (R465): the general registers, memory, devices, the paging state, the schedule and
every CSR that is not in `saved`. -/
structure TrapFrame (saved : List CsrNum) (s t : State) : Prop where
  regs    : SameRegs s t
  memory  : SameMemory s t
  devices : SameDevices s t
  cfg     : t.cfg = s.cfg
  paging  : t.paging = s.paging
  ptRoot  : t.ptRoot = s.ptRoot
  input   : t.input = s.input
  csr     : ∀ a, a ∉ saved → t.csrRaw a = s.csrRaw a

/-- `t` is `s` after a trap handled in Machine mode (R462): the record, the status word, the mode and the pc. -/
structure EnteredM (s : State) (code : Nat) (isInterrupt : Bool) (cause epc : Word) (t : State) : Prop where
  mode   : t.mode = .machine
  epc    : t.csrRaw Csr.mepc = epc
  cause  : t.csrRaw Csr.mcause = cause
  tval   : t.csrRaw Csr.mtval = 0
  status : ∀ i, i < 64 → (t.csrRaw Csr.mstatus).getLsbD i =
    if i = 7 then (s.csrRaw Csr.mstatus).getLsbD 3
    else if i = 3 then false
    else if i = 11 then decide (s.mode ≠ .user)
    else if i = 12 then decide (s.mode = .machine)
    else (s.csrRaw Csr.mstatus).getLsbD i
  pc     : VectorTarget (s.csrRaw Csr.mtvec) code isInterrupt t.pc
  resv   : t.resv = none
  frame  : TrapFrame [Csr.mepc, Csr.mcause, Csr.mtval, Csr.mstatus] s t

/-- `t` is `s` after a trap handled in Supervisor mode (R462). -/
structure EnteredS (s : State) (code : Nat) (isInterrupt : Bool) (cause epc : Word) (t : State) : Prop where
  mode   : t.mode = .supervisor
  epc    : t.csrRaw Csr.sepc = epc
  cause  : t.csrRaw Csr.scause = cause
  tval   : t.csrRaw Csr.stval = 0
  status : ∀ i, i < 64 → (t.csrRaw Csr.sstatus).getLsbD i =
    if i = 5 then (s.csrRaw Csr.sstatus).getLsbD 1
    else if i = 1 then false
    else if i = 8 then decide (s.mode = .supervisor)
    else (s.csrRaw Csr.sstatus).getLsbD i
  pc     : VectorTarget (s.csrRaw Csr.stvec) code isInterrupt t.pc
  resv   : t.resv = none
  frame  : TrapFrame [Csr.sepc, Csr.scause, Csr.stval, Csr.sstatus] s t

/-- `t` is `s` after a trap with this code (R460, R461): Supervisor mode handles it exactly when it was taken from User or
Supervisor mode and `medeleg` bit `code` is set. -/
def TrapTaken (s : State) (code : Nat) (isInterrupt : Bool) (cause epc : Word) (t : State) : Prop :=
  if s.mode ≠ .machine ∧ (s.csrRaw Csr.medeleg).getLsbD code = true then EnteredS s code isInterrupt cause epc t
  else EnteredM s code isInterrupt cause epc t

/-- `exec i` takes the exception with this code: the entry is made, the saved pc is the instruction's own address, and a
fatal code also halts the machine (R455, 40_fetch_and_step.md R206). -/
def Traps (i : Instr) (s : State) (code : Nat) : Prop :=
  ∃ t, exec i s = .next t ∧ TrapTaken s code false (BitVec.ofNat 64 code) (s.pc - 4) t ∧
    t.halted = (decide (code ∈ [0, 1, 5, 6, 7]) || s.halted)

/-! ## Numbers of operands -/

/-- The signed number in the low `n` bits of `x`, for a value written `sext_n` (00_scope.md R23). -/
def signed (n : Nat) (x : Int) : Int := x.bmod (2 ^ n)

/-- `va` is `x[rs1]` plus the signed displacement, modulo 2^64 (42_loads_stores.md R260, R268). -/
def EffectiveAddress (s : State) (rs1 : RegIdx) (imm : BitVec 12) (va : Word) : Prop :=
  (va.toNat : Int) = ((s.reg rs1).toNat + imm.toInt) % 2 ^ 64

/-- `target` is the instruction's own address, `pc - 4` during execute, plus an offset, modulo 2^64 (00_scope.md R27). -/
def RelativeTarget (s : State) (off : Int) (target : Word) : Prop :=
  (target.toNat : Int) = ((s.pc.toNat : Int) - 4 + off) % 2 ^ 64

/-- What a branch with condition `c` does (41_control.md R236): nothing where `c` fails; else it goes to the target, or
traps with code 0 where the target is no multiple of 4 (R231). -/
def BranchMeans (i : Instr) (c : Prop) (off : BitVec 13) (s : State) : Prop :=
  (¬c → exec i s = .next s) ∧
  ∀ target, RelativeTarget s off.toInt target → c →
    (target.toNat % 4 = 0 → ∃ t, exec i s = .next t ∧ t.pc = target ∧ OnlyPc s t) ∧
    (target.toNat % 4 ≠ 0 → Traps i s 0)

/-- Bit `k` of a word as a number. -/
def bit (w : Word) (k : Nat) : Nat := w.toNat / 2 ^ k % 2

/-! ## Tables of instruction forms -/

/-- The loads with their sizes; the flag says sign-extension (42_loads_stores.md R261 to R267). -/
def loadForms (rd rs1 : RegIdx) (imm : BitVec 12) : List (Instr × Width × Bool) :=
  [(.lb rd rs1 imm, .byte, true), (.lh rd rs1 imm, .half, true), (.lw rd rs1 imm, .word, true),
   (.ld rd rs1 imm, .double, true), (.lbu rd rs1 imm, .byte, false), (.lhu rd rs1 imm, .half, false),
   (.lwu rd rs1 imm, .word, false)]

/-- The stores with their sizes (42_loads_stores.md R269 to R272). -/
def storeForms (rs1 rs2 : RegIdx) (imm : BitVec 12) : List (Instr × Width) :=
  [(.sb rs1 rs2 imm, .byte), (.sh rs1 rs2 imm, .half), (.sw rs1 rs2 imm, .word), (.sd rs1 rs2 imm, .double)]

/-- `v` is the `n`-byte number `x`, sign-extended or zero-extended. -/
def Extended (n : Width) (isSigned : Bool) (x : Nat) (v : Word) : Prop :=
  if isSigned then v.toInt = signed (8 * n.bytes) x else v.toNat = x

/-- The CSR instructions with what each makes of the prior value (47_csr.md R391 to R396). -/
def csrForms (rd rs1 : RegIdx) (uimm : BitVec 5) (a : CsrNum) (s : State) : List (Instr × (Word → Word)) :=
  [(.csrrw rd rs1 a, fun _ => s.reg rs1), (.csrrs rd rs1 a, fun t => t ||| s.reg rs1),
   (.csrrc rd rs1 a, fun t => t &&& ~~~s.reg rs1), (.csrrwi rd uimm a, fun _ => BitVec.ofNat 64 uimm.toNat),
   (.csrrsi rd uimm a, fun t => t ||| BitVec.ofNat 64 uimm.toNat),
   (.csrrci rd uimm a, fun t => t &&& ~~~BitVec.ofNat 64 uimm.toNat)]

/-- The AMOs on words with `Op(t, b)` as 32-bit numbers (48_atomic.md R422 to R430). -/
def amoWordForms (rd rs1 rs2 : RegIdx) (aq rl : Bool) : List (Instr × (BitVec 32 → BitVec 32 → BitVec 32)) :=
  [(.amoswapW rd rs1 rs2 aq rl, fun _ b => b), (.amoaddW rd rs1 rs2 aq rl, fun t b => t + b),
   (.amoxorW rd rs1 rs2 aq rl, fun t b => t ^^^ b), (.amoandW rd rs1 rs2 aq rl, fun t b => t &&& b),
   (.amoorW rd rs1 rs2 aq rl, fun t b => t ||| b),
   (.amominW rd rs1 rs2 aq rl, fun t b => if t.toInt ≤ b.toInt then t else b),
   (.amomaxW rd rs1 rs2 aq rl, fun t b => if t.toInt ≥ b.toInt then t else b),
   (.amominuW rd rs1 rs2 aq rl, fun t b => if t.toNat ≤ b.toNat then t else b),
   (.amomaxuW rd rs1 rs2 aq rl, fun t b => if t.toNat ≥ b.toNat then t else b)]

/-- The AMOs on doublewords with `Op(t, b)` (48_atomic.md R431 to R439). -/
def amoDoubleForms (rd rs1 rs2 : RegIdx) (aq rl : Bool) : List (Instr × (Word → Word → Word)) :=
  [(.amoswapD rd rs1 rs2 aq rl, fun _ b => b), (.amoaddD rd rs1 rs2 aq rl, fun t b => t + b),
   (.amoxorD rd rs1 rs2 aq rl, fun t b => t ^^^ b), (.amoandD rd rs1 rs2 aq rl, fun t b => t &&& b),
   (.amoorD rd rs1 rs2 aq rl, fun t b => t ||| b),
   (.amominD rd rs1 rs2 aq rl, fun t b => if t.toInt ≤ b.toInt then t else b),
   (.amomaxD rd rs1 rs2 aq rl, fun t b => if t.toInt ≥ b.toInt then t else b),
   (.amominuD rd rs1 rs2 aq rl, fun t b => if t.toNat ≤ b.toNat then t else b),
   (.amomaxuD rd rs1 rs2 aq rl, fun t b => if t.toNat ≥ b.toNat then t else b)]

/-- The atomic instructions that store, with their sizes. -/
def storingAtomics (rd rs1 rs2 : RegIdx) (aq rl : Bool) : List (Instr × Width) :=
  (.scW rd rs1 rs2 aq rl, .word) :: (.scD rd rs1 rs2 aq rl, .double) ::
    (amoWordForms rd rs1 rs2 aq rl).map (fun p => (p.1, .word)) ++
    (amoDoubleForms rd rs1 rs2 aq rl).map (fun p => (p.1, .double))

/-! ## Classes of instructions -/

/-- The jumps and the branches (41_control.md). -/
def isJumpOrBranch : Instr → Bool
  | .jal _ _ | .jalr _ _ _ | .beq _ _ _ | .bne _ _ _ | .blt _ _ _ | .bge _ _ _ | .bltu _ _ _ | .bgeu _ _ _ => true
  | _ => false

/-- The trap returns (46_system.md R376, R377). -/
def isTrapReturn : Instr → Bool
  | .mret _ _ | .sret _ _ => true
  | _ => false

/-- LR and SC (48_atomic.md R411). -/
def isReservation : Instr → Bool
  | .lrW _ _ _ _ | .lrD _ _ _ _ | .scW _ _ _ _ _ | .scD _ _ _ _ _ => true
  | _ => false

/-- The CSR instructions (47_csr.md). -/
def isCsrInstr : Instr → Bool
  | .csrrw _ _ _ | .csrrs _ _ _ | .csrrc _ _ _ | .csrrwi _ _ _ | .csrrsi _ _ _ | .csrrci _ _ _ => true
  | _ => false

/-- The loads (42_loads_stores.md). -/
def isLoad : Instr → Bool
  | .lb _ _ _ | .lh _ _ _ | .lw _ _ _ | .ld _ _ _ | .lbu _ _ _ | .lhu _ _ _ | .lwu _ _ _ => true
  | _ => false

/-- The instructions that can write memory: stores, SC and the AMOs. -/
def isStoring : Instr → Bool
  | .sb _ _ _ | .sh _ _ _ | .sw _ _ _ | .sd _ _ _ | .scW _ _ _ _ _ | .scD _ _ _ _ _
  | .amoswapW _ _ _ _ _ | .amoaddW _ _ _ _ _ | .amoxorW _ _ _ _ _ | .amoandW _ _ _ _ _ | .amoorW _ _ _ _ _
  | .amominW _ _ _ _ _ | .amomaxW _ _ _ _ _ | .amominuW _ _ _ _ _ | .amomaxuW _ _ _ _ _
  | .amoswapD _ _ _ _ _ | .amoaddD _ _ _ _ _ | .amoxorD _ _ _ _ _ | .amoandD _ _ _ _ _ | .amoorD _ _ _ _ _
  | .amominD _ _ _ _ _ | .amomaxD _ _ _ _ _ | .amominuD _ _ _ _ _ | .amomaxuD _ _ _ _ _ => true
  | _ => false

/-- The one general register an instruction can write, if any (43_integer_ops.md R290, 41_control.md R230 and R236,
42_loads_stores.md R260 and R268, 46_system.md R370 to R377, 47_csr.md R390, 48_atomic.md R413, R414 and R420). -/
def destination : Instr → Option RegIdx
  | .beq _ _ _ | .bne _ _ _ | .blt _ _ _ | .bge _ _ _ | .bltu _ _ _ | .bgeu _ _ _ | .sb _ _ _ | .sh _ _ _
  | .sw _ _ _ | .sd _ _ _ | .fence _ _ _ _ _ | .fenceI _ _ _ | .ecall _ _ | .ebreak _ _ | .sret _ _ | .mret _ _
  | .wfi _ _ | .sfenceVma _ _ _ => none
  | .lui rd _ | .auipc rd _ | .jal rd _ | .jalr rd _ _ | .lb rd _ _ | .lh rd _ _ | .lw rd _ _ | .ld rd _ _
  | .lbu rd _ _ | .lhu rd _ _ | .lwu rd _ _ | .addi rd _ _ | .slti rd _ _ | .sltiu rd _ _ | .xori rd _ _
  | .ori rd _ _ | .andi rd _ _ | .slli rd _ _ | .srli rd _ _ | .srai rd _ _ | .add rd _ _ | .sub rd _ _
  | .sll rd _ _ | .slt rd _ _ | .sltu rd _ _ | .xor rd _ _ | .srl rd _ _ | .sra rd _ _ | .or rd _ _
  | .and rd _ _ | .addiw rd _ _ | .slliw rd _ _ | .srliw rd _ _ | .sraiw rd _ _ | .addw rd _ _ | .subw rd _ _
  | .sllw rd _ _ | .srlw rd _ _ | .sraw rd _ _ | .mul rd _ _ | .mulh rd _ _ | .mulhsu rd _ _ | .mulhu rd _ _
  | .div rd _ _ | .divu rd _ _ | .rem rd _ _ | .remu rd _ _ | .mulw rd _ _ | .divw rd _ _ | .divuw rd _ _
  | .remw rd _ _ | .remuw rd _ _ | .csrrw rd _ _ | .csrrs rd _ _ | .csrrc rd _ _ | .csrrwi rd _ _
  | .csrrsi rd _ _ | .csrrci rd _ _ | .lrW rd _ _ _ | .lrD rd _ _ _ | .scW rd _ _ _ _ | .scD rd _ _ _ _
  | .amoswapW rd _ _ _ _ | .amoaddW rd _ _ _ _ | .amoxorW rd _ _ _ _ | .amoandW rd _ _ _ _ | .amoorW rd _ _ _ _
  | .amominW rd _ _ _ _ | .amomaxW rd _ _ _ _ | .amominuW rd _ _ _ _ | .amomaxuW rd _ _ _ _
  | .amoswapD rd _ _ _ _ | .amoaddD rd _ _ _ _ | .amoxorD rd _ _ _ _ | .amoandD rd _ _ _ _ | .amoorD rd _ _ _ _
  | .amominD rd _ _ _ _ | .amomaxD rd _ _ _ _ | .amominuD rd _ _ _ _ | .amomaxuD rd _ _ _ _ => some rd

/-- ECALL (46_system.md R372). -/
def isEcall : Instr → Bool
  | .ecall _ _ => true
  | _ => false

/-! ## Interrupts and devices -/

/-- Interrupt bit `b` is enabled and pending; bit 7 also by the timer condition (R452, R503). -/
def PendingEnabled (s : State) (b : Nat) : Prop :=
  bit (s.csrRaw Csr.mie) b = 1 ∧
    (bit (s.csrRaw Csr.mip) b = 1 ∨ (b = 7 ∧ s.clint.mtimecmp.toNat ≤ s.clint.mtime.toNat))

/-- `t` is `s` with interrupt number `irq` announced (R451): the claim register, and bit 9 of `mip`. -/
structure Announced (irq : BitVec 32) (s t : State) : Prop where
  claim  : t.plic = if irq = 0 then s.plic else { s.plic with sclaim := irq }
  csr    : ∀ a b, b < 64 → (t.csrRaw a).getLsbD b =
    if irq ≠ 0 ∧ a = Csr.mip ∧ b = 9 then true else (s.csrRaw a).getLsbD b
  regs   : SameRegs s t
  memory : SameMemory s t
  rest   : t.cfg = s.cfg ∧ t.pc = s.pc ∧ t.mode = s.mode ∧ t.paging = s.paging ∧ t.ptRoot = s.ptRoot ∧ t.resv = s.resv ∧
    t.halted = s.halted ∧ t.clint = s.clint ∧ t.uart = s.uart ∧ t.virtio = s.virtio ∧ t.disk = s.disk ∧ t.out = s.out ∧
    t.input = s.input

/-- `pa` lies in window `w`. -/
def InWindow (w : Window) (pa : Nat) : Prop := w.base ≤ pa ∧ pa < w.base + w.size

/-- `pa` is offset `off` of window `w`. -/
def AtOffset (w : Window) (off : Nat) (pa : Word) : Prop := pa.toNat = w.base + off ∧ off < w.size

/-- The bus refuses an access of width `n` at `pa`: a device window and not the device's width (20_memory.md R107), past
the end of DRAM (R106), or unmapped (R110). -/
def Refused (c : Config) (pa : Nat) (n : Width) : Prop :=
  (InWindow c.clint pa ∧ n ≠ .double) ∨ (InWindow c.plic pa ∧ n ≠ .word) ∨ (InWindow c.uart pa ∧ n ≠ .byte) ∨
  (InWindow c.virtio pa ∧ n ≠ .word) ∨
  (c.dramBase ≤ pa ∧ c.dramBase + c.dramSize < pa + n.bytes) ∨
  (pa < c.dramBase ∧ ¬InWindow c.clint pa ∧ ¬InWindow c.plic pa ∧ ¬InWindow c.uart pa ∧ ¬InWindow c.virtio pa)

/-- The interrupt controller's registers by offset (60_exceptions.md R510). -/
def plicTable (p : Plic) : List (Nat × BitVec 32) :=
  [(0x1000, p.pending), (0x2080, p.senable), (0x201000, p.spriority), (0x201004, p.sclaim)]

/-- The block device's registers by offset (60_exceptions.md R535). -/
def virtioTable (v : Virtio) : List (Nat × BitVec 32) :=
  [(0x000, 0x74726976), (0x004, 1), (0x008, 2), (0x00C, 0x554D4551), (0x010, 0), (0x020, v.driverFeatures),
   (0x028, v.guestPageSize), (0x030, v.queueSel), (0x034, 8), (0x038, v.queueNum), (0x040, v.queuePfn),
   (0x050, v.queueNotify), (0x070, v.status)]

/-- `w` is what the registers of `table` read as at `off`: 0 where there is none (20_memory.md R107). -/
def RegisterAt (table : List (Nat × BitVec 32)) (off : Nat) (w : BitVec 32) : Prop :=
  (off, w) ∈ table ∨ (off ∉ table.map Prod.fst ∧ w = 0)

/-- The instruction word at physical address `pa` (40_fetch_and_step.md R201): four bytes of DRAM, or a register of the
interrupt controller or of the block device. -/
def WordAt (s : State) (pa : Word) (w : BitVec 32) : Prop :=
  (InDram s pa.toNat 4 ∧ w.toNat = littleEndian s pa.toNat 4) ∨
  (∃ off, AtOffset s.cfg.plic off pa ∧ RegisterAt (plicTable s.plic) off w) ∨
  (∃ off, AtOffset s.cfg.virtio off pa ∧ RegisterAt (virtioTable s.virtio) off w)

/-! ## The reads of a disk request (60_exceptions.md R542, R543) -/

/-- A bus read of `n` bytes at `a` gives `x`. -/
def Reads (s : State) (a : Word) (n : Width) (x : Word) : Prop := ∃ s', busLoad s a n .load = .ok (x, s')

/-- The descriptor table's address. -/
def descriptors (s : State) : Word := BitVec.ofNat 64 (s.virtio.queuePfn.toNat * s.virtio.guestPageSize.toNat)

/-- `h` is the head descriptor's number: the available ring's entry before its index. -/
def RequestHead (s : State) (h : Word) : Prop :=
  ∃ idx, Reads s (descriptors s + 0x82) .half idx ∧
    Reads s (descriptors s + 0x84 + BitVec.ofNat 64 (2 * ((idx.toNat + 7) % 8))) .half h

/-- A disk request reads `n` bytes at `a`: the eight reads, each at the address that the reads before it give. -/
inductive RequestRead (s : State) : Word → Width → Prop
  | index : RequestRead s (descriptors s + 0x82) .half
  | entry {idx : Word} : Reads s (descriptors s + 0x82) .half idx →
      RequestRead s (descriptors s + 0x84 + BitVec.ofNat 64 (2 * ((idx.toNat + 7) % 8))) .half
  | headerAddress {h : Word} : RequestHead s h → RequestRead s (descriptors s + 16 * h) .double
  | next {h : Word} : RequestHead s h → RequestRead s (descriptors s + 16 * h + 14) .half
  | buffer {h d : Word} : RequestHead s h → Reads s (descriptors s + 16 * h + 14) .half d →
      RequestRead s (descriptors s + 16 * d) .double
  | length {h d : Word} : RequestHead s h → Reads s (descriptors s + 16 * h + 14) .half d →
      RequestRead s (descriptors s + 16 * d + 8) .word
  | flags {h d : Word} : RequestHead s h → Reads s (descriptors s + 16 * h + 14) .half d →
      RequestRead s (descriptors s + 16 * d + 12) .half
  | sector {h a : Word} : RequestHead s h → Reads s (descriptors s + 16 * h) .double a → RequestRead s (a + 8) .double

/-! ## Invariants -/

/-- The byte stores and the CSR bank are in canonical form. -/
def CanonicalStores (s : State) : Prop :=
  Memory.wf s.mem = true ∧ Memory.wf s.disk = true ∧ Memory.wf s.uart.regs = true ∧ sparseWf 0 s.csr = true

/-- The paging state is what `satp` gives (10_state.md R56). -/
def PagingFollowsSatp (s : State) : Prop :=
  (s.paging = true ↔ (s.csrRaw Csr.satp).toNat / 2 ^ 60 = 8) ∧
  s.ptRoot.toNat = (s.csrRaw Csr.satp).toNat % 2 ^ 44 * s.cfg.pageSize % 2 ^ 64

/-- Nonzero bytes lie inside DRAM and inside the disk (10_state.md R62, R66). -/
def BytesInBounds (s : State) : Prop :=
  (∀ a, s.byte a ≠ 0 → InDram s a 1) ∧ (∀ k, Memory.read s.disk k ≠ 0 → k < s.cfg.diskSize)

/-- The bank has no entry for `sie` (47_csr.md R397) and none past 4095 (10_state.md R45). -/
def CsrBankShape (s : State) : Prop := sparseRead 0 s.csr 0x104 = 0 ∧ ∀ k, 4096 ≤ k → sparseRead 0 s.csr k = 0

end Sys2Proof.Safety
end

