-- ==== Sys2Proof/Certificates/Slice0/Obligations.lean ====
section
/-! DEFINITION. The statements for the provers. Each cites the rules of the spec it formalises. In a statement about
`exec`, `s` is the state during execute: its pc is already past the instruction's word (00_scope.md R27). -/

open Sys2Proof Sys2Proof.Machine Sys2Proof.Safety

/-! ## Encoding -/

/-- Words written out from the spec's examples decode to the instructions they stand for (30_encoding.md R162 to R182). -/
def Obligations.DecodesKnownWords : Prop :=
  decodeWord true 0x800002b7#32 = .ok (.lui 5 0x80000) ∧
  decodeWord true 0xffdff06f#32 = .ok (.jal 0 (BitVec.ofInt 21 (-4))) ∧
  decodeWord true 0xfe20cce3#32 = .ok (.blt 1 2 (BitVec.ofInt 13 (-8))) ∧
  decodeWord true 0x80012283#32 = .ok (.lw 5 2 (BitVec.ofInt 12 (-2048))) ∧
  decodeWord true 0x005110a3#32 = .ok (.sh 2 5 1) ∧
  decodeWord true 0x43f0d293#32 = .ok (.srai 5 1 63) ∧
  decodeWord true 0x41f0d29b#32 = .ok (.sraiw 5 1 31) ∧
  decodeWord true 0x0220a1b3#32 = .ok (.mulhsu 3 1 2) ∧
  decodeWord true 0x30200073#32 = .ok (.mret 0 0) ∧
  decodeWord true 0x340872f3#32 = .ok (.csrrci 5 16 0x340) ∧
  decodeWord true 0x186122af#32 = .ok (.scW 5 2 6 false false) ∧
  decodeWord true 0x00000000#32 = .error .unknownOpcode ∧
  decodeWord true 0x103122af#32 = .error .reservedAmo

/-- Decoding an encoded well-formed instruction gives it back, with every operand at every value: no bit is dropped
(30_encoding.md R162 to R182). -/
def Obligations.DecodeOfEncode : Prop :=
  ∀ (hasM : Bool) (i : Instr), i.wellFormed hasM = true → decodeWord hasM (encode i) = .ok i

/-- Encoding a decoded instruction gives the word back, and every decoded instruction is well formed (30_encoding.md R162 to
R183). Words that differ only in fields the decoder ignores are one instruction of the spec (R184): that they are different
terms of `Instr`, so that no two words decode to one term, is the model's choice (notes/assumptions/13.md). -/
def Obligations.EncodeOfDecode : Prop :=
  ∀ (hasM : Bool) (w : BitVec 32) (i : Instr), decodeWord hasM w = .ok i → i.wellFormed hasM = true ∧ encode i = w

/-- 30_encoding.md R183: a word decodes to the unique row of the opcode table it matches, the 98 rows are disjoint, and a
word that matches no row, or one of the RV64M rows without RV64M, raises IllegalInstruction and changes nothing else. -/
def Obligations.DecoderFollowsOpcodeTable : Prop :=
  opcodeTable.length = 98 ∧
  ∀ w : BitVec 32,
    (∀ r ∈ opcodeTable, ∀ q ∈ opcodeTable, r.matchesWord w = true → q.matchesWord w = true → r = q) ∧
    (∀ r ∈ opcodeTable, r.matchesWord w = true → ∃ i, i.row = r ∧ decodeWord true w = .ok i ∧
      (i.isMulDiv = false → decodeWord false w = .ok i)) ∧
    (∀ s : State,
      ((∀ r ∈ opcodeTable, r.matchesWord w = false) ∨
        (s.cfg.hasM = false ∧ ∃ i, decodeWord true w = .ok i ∧ i.isMulDiv = true)) →
      ∃ t, executeWord w s = .next t ∧ TrapTaken s 2 false 2 (s.pc - 4) t ∧ t.halted = s.halted)

/-! ## Reset -/

/-- The machine after reset and loading (10_state.md R68; 70_reset_and_hazards.md R565), for every parameter set and every
pair of images: an image that does not fit is refused; else every piece of state has the value the table of R68 gives. -/
def Obligations.ResetAndLoadValues : Prop :=
  ∀ (c : Config) (image disk : List Byte),
    (c.dramSize < image.length → (State.resetWith c).load image disk = .refused .imageTooLong) ∧
    (image.length ≤ c.dramSize → ∃ t, (State.resetWith c).load image disk = .next t ∧
      t.reg 0 = 0 ∧ t.reg 2 = BitVec.ofNat 64 (c.dramBase + c.dramSize) ∧
      (c.resetGprZero = true → ∀ r, r ≠ 2 → t.reg r = 0) ∧
      t.pc = BitVec.ofNat 64 c.dramBase ∧ t.mode = .machine ∧ (∀ a, t.csrRaw a = 0) ∧
      t.paging = false ∧ t.ptRoot = 0 ∧ t.resv = none ∧ t.halted = false ∧
      (∀ a, t.byte a = if c.dramBase ≤ a then image.getD (a - c.dramBase) 0 else 0) ∧
      t.clint.mtime = 0 ∧ t.clint.mtimecmp = 0 ∧
      t.plic.pending = 0 ∧ t.plic.senable = 0 ∧ t.plic.spriority = 0 ∧ t.plic.sclaim = 0 ∧
      (∀ k, t.uart.reg k = if k = 5 then 0x20 else 0) ∧ t.uart.intr = false ∧
      t.virtio.driverFeatures = 0 ∧ t.virtio.guestPageSize = 0 ∧ t.virtio.queueSel = 0 ∧ t.virtio.queueNum = 0 ∧
      t.virtio.queuePfn = 0 ∧ t.virtio.status = 0 ∧ t.virtio.queueNotify = c.virtioNotifyIdle ∧ t.virtio.vioId = 0 ∧
      (∀ k, Memory.read t.disk k = disk.getD k 0) ∧ t.cfg = { c with diskSize := disk.length } ∧ t.out = [])

/-- Reset and loading establish the invariants that every step keeps; with the reference parameters the first fetch is at
0x8000_0000 and the stack pointer is 0x8800_0000 (00_scope.md R20; 70_reset_and_hazards.md R560, R561). -/
def Obligations.ResetMeetsInvariants : Prop :=
  State.reset = State.resetWith Config.reference ∧ State.reset.pc = 0x80000000 ∧ State.reset.reg 2 = 0x88000000 ∧
  Config.reference.admissible = true ∧
  ∀ (c : Config),
    (CanonicalStores (State.resetWith c) ∧ PagingFollowsSatp (State.resetWith c) ∧ BytesInBounds (State.resetWith c) ∧
      CsrBankShape (State.resetWith c)) ∧
    ∀ (image disk : List Byte) (t : State), (State.resetWith c).load image disk = .next t →
      CanonicalStores t ∧ PagingFollowsSatp t ∧ BytesInBounds t ∧ CsrBankShape t

/-! ## The step -/

/-- A step runs the decoded instruction (40_fetch_and_step.md R200 to R202): where the word at the translated pc, four bytes
of DRAM or a register of the interrupt controller or of the block device, decodes to an instruction whose sources are
readable, the step is that instruction on the state with pc + 4, then, unless it halted the machine, the interrupt check.
`consoleSlot` is where the input agent may act (R200; the schedule is the model's, notes/assumptions/6.md; with no input
it changes nothing). -/
def Obligations.StepRunsDecodedInstruction : Prop :=
  ∀ (s s0 : State) (pa : Word) (w : BitVec 32) (i : Instr),
    s.cfg.admissible = true → s.halted = false → s0 = consoleSlot s →
    translate s0 s0.pc .fetch = .ok pa → WordAt s0 pa w →
    decodeWord s0.cfg.hasM w = .ok i → (s0.setPc (s0.pc + 4)).sourcesReadable i = true →
    (s.input = [] → s0 = s) ∧
    step s =
      match exec i (s0.setPc (s0.pc + 4)) with
      | .next t => if t.halted = true then .next t else interruptCheck (consoleSlot t)
      | .fault f => .fault f
      | .refused r => .refused r

/-- A fetch that faults is delivered with the fetch address saved (40_fetch_and_step.md R202, R203): code 1 halts the
machine, code 12 goes to the handler, and no interrupt is taken in that step. -/
def Obligations.FetchFaultIsDelivered : Prop :=
  ∀ (s s0 : State) (e : Exc),
    s.cfg.admissible = true → s.halted = false → s0 = consoleSlot s → fetch s0 = .error e →
    (e = .instructionAccessFault ∧ ∃ t, step s = .next t ∧ t.halted = true ∧
      TrapTaken (s0.setPc (s0.pc + 4)) 1 false 1 s0.pc t) ∨
    (e = .instructionPageFault ∧ ∃ t, step s = .next (consoleSlot t) ∧ t.halted = false ∧
      TrapTaken (s0.setPc (s0.pc + 4)) 12 false 12 s0.pc t)

/-- At most one trap per step (40_fetch_and_step.md R206, R207): after phase A delivered an exception the step ends with
it, halted where it is fatal, with no device poll and no interrupt. -/
def Obligations.NoInterruptAfterException : Prop :=
  ∀ (s s1 : State) (e : Exc),
    s.cfg.admissible = true → s.halted = false → s1.halted = false → phaseA (consoleSlot s) = .next (s1.deliver e) →
    step s = .next (if e.fatal = true then s1.deliver e else consoleSlot (s1.deliver e)) ∧
    interruptCheck (s1.deliver e) = .next (s1.deliver e)

/-- Where a step stops (40_fetch_and_step.md R206, R209; 10_state.md R42; 00_scope.md R21, R29): inadmissible parameters are
refused at every step (R21 lets a model refuse them; that it does is the model's choice, notes/assumptions/18.md) and a
halted machine takes no step (that this is the fault `halted` is the model's reading, notes/assumptions/9.md); otherwise only MRET with MPP = 2, a read of an unwritten register without
RESET_GPR_ZERO, and a disk transfer stop it, and such a read always does. `sources` is the model's reading of which
registers an instruction comes to read in a state (notes/assumptions/11.md and 12.md). -/
def Obligations.StepStopsOnlyWhere : Prop :=
  ∀ s s0 : State, s0 = consoleSlot s →
    (s.cfg.admissible = false → step s = .refused .inadmissibleParameters) ∧
    (s.cfg.admissible = true → s.halted = true → step s = .fault .halted) ∧
    (∀ r, step s = .refused r → s.cfg.admissible = false) ∧
    (∀ w i r, s.cfg.admissible = true → s.halted = false → s.cfg.resetGprZero = false → fetch s0 = .ok w →
      decodeWord s0.cfg.hasM w = .ok i → r ∈ sources i (s0.setPc (s0.pc + 4)) → s0.isWritten r = false →
      r ≠ 0 ∧ step s = .fault .unwrittenRegister) ∧
    (∀ f, step s = .fault f → s.halted = false →
      (f = .mretReservedMode ∧ (s0.csrRaw Csr.mstatus).toNat / 2 ^ 11 % 4 = 2 ∧
        ∃ w rs1 rd, fetch s0 = .ok w ∧ decodeWord s0.cfg.hasM w = .ok (.mret rs1 rd)) ∨
      (f = .unwrittenRegister ∧ s.cfg.resetGprZero = false ∧
        ∃ w i r, fetch s0 = .ok w ∧ decodeWord s0.cfg.hasM w = .ok i ∧ r ∈ sources i (s0.setPc (s0.pc + 4)) ∧
          s0.isWritten r = false) ∨
      ((∃ t, f = .virtioRange t ∨ f = .virtioBus t) ∧
        ∃ t, phaseA s0 = .next t ∧ t.halted = false ∧ t.virtio.queueNotify ≠ t.cfg.virtioNotifyIdle))

/-- Which registers an instruction comes to read (10_state.md R42; 40_fetch_and_step.md R209; 42_loads_stores.md R268;
48_atomic.md R414, R420). A register it does not read does not matter: with another value there it does the same, and at
most that register differs after. A store reads `x[rs2]` only with its address translated, SC only with its reservation,
an AMO only after its bus read. That it does so is the model's reading of the rules' order (notes/assumptions/12.md). -/
def Obligations.UnreadRegistersDoNotMatter : Prop :=
  (∀ (i : Instr) (s : State) (r : RegIdx) (v : Word), r ∉ sources i s →
    (∃ t, exec i s = .next t ∧
      (exec i (s.setReg r v) = .next (t.setReg r v) ∨ (destination i = some r ∧ exec i (s.setReg r v) = .next t))) ∨
    ∃ f, exec i s = .fault f ∧ exec i (s.setReg r v) = .fault f) ∧
  (∀ (s : State) (rs1 rs2 : RegIdx) (imm : BitVec 12) (va : Word), EffectiveAddress s rs1 imm va →
    ∀ f ∈ storeForms rs1 rs2 imm,
      ((∃ e, translate s va .store = .error e) → sources f.1 s = [rs1]) ∧
      ((∃ pa, translate s va .store = .ok pa) → sources f.1 s = [rs1, rs2])) ∧
  ∀ (s : State) (rd rs1 rs2 : RegIdx) (aq rl : Bool), ∀ f ∈ storingAtomics rd rs1 rs2 aq rl,
    ((s.reg rs1).toNat % f.2.bytes ≠ 0 → sources f.1 s = [rs1]) ∧
    ((∃ e, translate s (s.reg rs1) .store = .error e) → sources f.1 s = [rs1]) ∧
    ∀ pa, translate s (s.reg rs1) .store = .ok pa → (s.reg rs1).toNat % f.2.bytes = 0 →
      (isReservation f.1 = true → sources f.1 s = if s.resv = some pa then [rs1, rs2] else [rs1]) ∧
      (isReservation f.1 = false →
        ((∃ e, busLoad s pa f.2 .store = .error e) → sources f.1 s = [rs1]) ∧
        ((∃ x, busLoad s pa f.2 .store = .ok x) → sources f.1 s = [rs1, rs2]))

/-- The machine halts only by delivering a fatal cause (40_fetch_and_step.md R206, R210; 60_exceptions.md R455): the cause
register of the mode entered holds 0, 1, 5, 6 or 7. -/
def Obligations.HaltsOnlyOnFatalCause : Prop :=
  ∀ s t : State, step s = .next t → t.halted = true →
    ∃ code ∈ [0, 1, 5, 6, 7],
      (t.mode = .machine ∧ t.csrRaw Csr.mcause = BitVec.ofNat 64 code) ∨
      (t.mode = .supervisor ∧ t.csrRaw Csr.scause = BitVec.ofNat 64 code)

/-! ## Traps -/

/-- Taking a trap (60_exceptions.md R460 to R463, R453): where it goes, what is saved, the status word bit by bit, the
mode, the vector target, the reservation, and that nothing else changes. -/
def Obligations.TrapEntry : Prop :=
  ∀ (s : State) (tr : Trap),
    TrapTaken s tr.code tr.isInterrupt
      (BitVec.ofNat 64 ((if tr.isInterrupt = true then 2 ^ 63 else 0) + tr.code))
      (if tr.isInterrupt = true ∧ s.cfg.intrEpc = .pc then s.pc else s.pc - 4) (s.takeTrap tr) ∧
    (s.takeTrap tr).halted = s.halted

/-- The cause numbers (60_exceptions.md R454, R455): exactly the codes 0, 1, 5, 6 and 7 are fatal. -/
def Obligations.CauseNumbers : Prop :=
  ([Exc.instructionAddressMisaligned, .instructionAccessFault, .illegalInstruction, .breakpoint, .loadAddressMisaligned,
    .loadAccessFault, .storeAmoAddressMisaligned, .storeAmoAccessFault, .environmentCallFromU, .environmentCallFromS,
    .environmentCallFromM, .instructionPageFault, .loadPageFault, .storeAmoPageFault].map Exc.code =
      [0, 1, 2, 3, 4, 5, 6, 7, 8, 9, 11, 12, 13, 15]) ∧
  (∀ e : Exc, e.fatal = true ↔ e.code ∈ [0, 1, 5, 6, 7]) ∧
  ([Interrupt.supervisorSoftware, .machineSoftware, .supervisorTimer, .machineTimer, .supervisorExternal,
    .machineExternal].map Interrupt.code = [1, 3, 5, 7, 9, 11])

/-- Traps are precise and each kind of state has few writers (60_exceptions.md R457; 10_state.md R44; 48_atomic.md R411;
60_exceptions.md R472): an instruction that answers a next state either had an exception delivered on the state it
started from, or left alone what is not its class's to write: among the general registers, all but its destination, which
stores, branches, fences, calls and trap returns do not have. -/
def Obligations.OnlyTheirClassWrites : Prop :=
  ∀ (i : Instr) (s t : State), exec i s = .next t →
    (∃ e, t = s.deliver e) ∨
    (t.cfg = s.cfg ∧ t.halted = s.halted ∧ t.input = s.input ∧ t.disk = s.disk ∧
      (∀ r, destination i ≠ some r → t.reg r = s.reg r ∧ t.isWritten r = s.isWritten r) ∧
      (isTrapReturn i = false → t.mode = s.mode) ∧
      (isTrapReturn i = false → isJumpOrBranch i = false → t.pc = s.pc) ∧
      (isReservation i = false → t.resv = s.resv) ∧
      (isTrapReturn i = false → isCsrInstr i = false → ∀ a, t.csrRaw a = s.csrRaw a) ∧
      (isCsrInstr i = false → t.paging = s.paging ∧ t.ptRoot = s.ptRoot) ∧
      (isStoring i = false → SameMemory s t ∧ t.clint = s.clint ∧ t.plic = s.plic ∧ t.virtio = s.virtio ∧ t.out = s.out) ∧
      (isStoring i = false → isLoad i = false → t.uart = s.uart))

/-- Nothing but ECALL looks at the mode (60_exceptions.md R471; 46_system.md R378; 20_memory.md R120, R128): in another
mode an instruction does the same, or raises the same exception; a trap return comes to the very same state. A fetch does
not look at it either. -/
def Obligations.ModeIsNotLookedAt : Prop :=
  ∀ (i : Instr) (s : State) (m : Mode),
    fetch (s.setMode m) = fetch s ∧
    (isTrapReturn i = true → exec i (s.setMode m) = exec i s) ∧
    (isEcall i = false → isTrapReturn i = false →
      (∃ e, exec i s = .next (s.deliver e) ∧ exec i (s.setMode m) = .next ((s.setMode m).deliver e)) ∨
      (∃ t, exec i s = .next t ∧ exec i (s.setMode m) = .next (t.setMode m)))

/-! ## The interrupt check -/

/-- The interrupt check starts with the current mode's global enable (60_exceptions.md R450): with it clear nothing happens
at all; in User mode it is always set. -/
def Obligations.GlobalEnableGatesTheCheck : Prop :=
  ∀ s : State,
    let ie := match s.mode with
      | .machine => bit (s.csrRaw Csr.mstatus) 3
      | .supervisor => bit (s.csrRaw Csr.sstatus) 1
      | .user => 1
    (ie = 0 → interruptCheck s = .next s) ∧
    (ie ≠ 0 → (∀ t, pollDevices s = .ok t → interruptCheck s = .next (selectAndDeliver t)) ∧
      ∀ f, pollDevices s = .error f → interruptCheck s = .fault f)

/-- The device poll (60_exceptions.md R451): the console first, and only then the block device, whose signal is consumed
and whose transfer runs; whichever was served is announced. -/
def Obligations.DevicePoll : Prop :=
  ∀ s : State,
    (s.uart.intr = true →
      ∃ t, pollDevices s = .ok t ∧ Announced s.cfg.uartIrq (s.setUart { s.uart with intr := false }) t) ∧
    (s.uart.intr = false → s.virtio.queueNotify ≠ s.cfg.virtioNotifyIdle →
      (∀ t1, diskAccess (s.setVirtio { s.virtio with queueNotify := s.cfg.virtioNotifyIdle }) = .ok t1 →
        ∃ t, pollDevices s = .ok t ∧ Announced s.cfg.virtioIrq t1 t) ∧
      ∀ f, diskAccess (s.setVirtio { s.virtio with queueNotify := s.cfg.virtioNotifyIdle }) = .error f →
        pollDevices s = .error f) ∧
    (s.uart.intr = false → s.virtio.queueNotify = s.cfg.virtioNotifyIdle → pollDevices s = .ok s)

/-- Selection and priority (60_exceptions.md R452, R453, R503): the first of 11, 3, 7, 9, 1, 5 that is enabled and pending
is taken, with its bit of `mip` cleared and nothing else of `mip` changed; with none, nothing happens. -/
def Obligations.SelectsByPriority : Prop :=
  ∀ s : State,
    ((∀ b ∈ [11, 3, 7, 9, 1, 5], ¬PendingEnabled s b) → selectAndDeliver s = s) ∧
    ∀ (before : List Nat) (b : Nat) (after : List Nat), [11, 3, 7, 9, 1, 5] = before ++ b :: after →
      (∀ c ∈ before, ¬PendingEnabled s c) → PendingEnabled s b →
      ∃ v : Word, (∀ j, j < 64 → v.getLsbD j = if j = b then false else (s.csrRaw Csr.mip).getLsbD j) ∧
        TrapTaken (s.setCsr Csr.mip v) b true (BitVec.ofNat 64 (2 ^ 63 + b))
          (if s.cfg.intrEpc = .pc then s.pc else s.pc - 4) (selectAndDeliver s) ∧
        (selectAndDeliver s).halted = s.halted

/-- The console input agent (60_exceptions.md R531): it waits while LSR bit 0 is set; else it stores the byte, raises the
interrupt flag and sets LSR bit 0, and touches nothing else. That the waiting bytes are a list in State is
notes/assumptions/6.md. -/
def Obligations.ConsoleInputWaitsForTheReader : Prop :=
  ∀ (s : State) (b : Byte) (rest : List (Option Byte)), s.input = some b :: rest →
    ((s.uart.reg 5).getLsbD 0 = true → consoleSlot s = s) ∧
    ((s.uart.reg 5).getLsbD 0 = false → ∃ u, consoleSlot s = (s.setUart u).setInput rest ∧ u.intr = true ∧
      ∀ k, u.reg k = if k = 0 then b else if k = 5 then s.uart.reg 5 ||| 1 else s.uart.reg k)

/-! ## The bus -/

/-- DRAM (20_memory.md R100, R106): a load gives the little-endian number of its bytes and changes nothing; a store puts
the bytes there and changes nothing else; past the end both raise the access fault of their kind. Every width, every
alignment. -/
def Obligations.DramAccess : Prop :=
  ∀ (s : State) (pa : Word) (n : Width) (v : Word) (k : AccessKind),
    s.cfg.admissible = true → s.cfg.dramBase ≤ pa.toNat →
    (pa.toNat + n.bytes ≤ s.cfg.dramBase + s.cfg.dramSize →
      (∃ x, busLoad s pa n k = .ok (x, s) ∧ x.toNat = littleEndian s pa.toNat n.bytes) ∧
      (∃ t, busStore s pa n v k = .ok t ∧ StoredAt s t pa.toNat n.bytes v ∧
        SameRegs s t ∧ t.pc = s.pc ∧ t.resv = s.resv ∧ SameSystem s t ∧ SameDevices s t)) ∧
    (s.cfg.dramBase + s.cfg.dramSize < pa.toNat + n.bytes →
      busLoad s pa n k = .error k.accessFault ∧ busStore s pa n v k = .error k.accessFault)

/-- Which accesses the bus refuses (20_memory.md R105 to R107, R110): exactly the unmapped ones, those past the end of DRAM
and, in a device window, every width but the device's own; always with the access fault of the kind. At an offset without
a register an access of the right width reads 0 and writes nothing (R107). -/
def Obligations.BusRefusals : Prop :=
  ∀ (s : State) (pa : Word) (n : Width) (v : Word) (k : AccessKind), s.cfg.admissible = true →
    (Refused s.cfg pa.toNat n → busLoad s pa n k = .error k.accessFault ∧ busStore s pa n v k = .error k.accessFault) ∧
    (¬Refused s.cfg pa.toNat n → (∃ x s', busLoad s pa n k = .ok (x, s')) ∧ ∃ t, busStore s pa n v k = .ok t) ∧
    (∀ off, AtOffset s.cfg.clint off pa → off ∉ [0x4000, 0xBFF8] →
      busLoad s pa .double k = .ok (0, s) ∧ busStore s pa .double v k = .ok s) ∧
    (∀ off, AtOffset s.cfg.plic off pa → off ∉ (plicTable s.plic).map Prod.fst →
      busLoad s pa .word k = .ok (0, s) ∧ busStore s pa .word v k = .ok s) ∧
    (∀ off, AtOffset s.cfg.virtio off pa → off ∉ (virtioTable s.virtio).map Prod.fst →
      busLoad s pa .word k = .ok (0, s) ∧ busStore s pa .word v k = .ok s)

/-- The registers of the timer and of the interrupt controller (60_exceptions.md R500, R501, R504, R510, R511): each reads
back what was stored and leaves the others alone; every other offset reads 0 and ignores writes. -/
def Obligations.TimerAndInterruptControllerRegisters : Prop :=
  ∀ (s : State) (pa v : Word) (off : Nat) (k : AccessKind), s.cfg.admissible = true →
    (AtOffset s.cfg.clint off pa →
      (off = 0x4000 → busLoad s pa .double k = .ok (s.clint.mtimecmp, s) ∧
        busStore s pa .double v k = .ok (s.setClint { s.clint with mtimecmp := v })) ∧
      (off = 0xBFF8 → busLoad s pa .double k = .ok (s.clint.mtime, s) ∧
        busStore s pa .double v k = .ok (s.setClint { s.clint with mtime := v })) ∧
      (off ≠ 0x4000 → off ≠ 0xBFF8 → busLoad s pa .double k = .ok (0, s) ∧ busStore s pa .double v k = .ok s)) ∧
    (AtOffset s.cfg.plic off pa →
      (off = 0x1000 → busLoad s pa .word k = .ok (BitVec.ofNat 64 s.plic.pending.toNat, s) ∧
        busStore s pa .word v k = .ok (s.setPlic { s.plic with pending := BitVec.ofNat 32 v.toNat })) ∧
      (off = 0x2080 → busLoad s pa .word k = .ok (BitVec.ofNat 64 s.plic.senable.toNat, s) ∧
        busStore s pa .word v k = .ok (s.setPlic { s.plic with senable := BitVec.ofNat 32 v.toNat })) ∧
      (off = 0x201000 → busLoad s pa .word k = .ok (BitVec.ofNat 64 s.plic.spriority.toNat, s) ∧
        busStore s pa .word v k = .ok (s.setPlic { s.plic with spriority := BitVec.ofNat 32 v.toNat })) ∧
      (off = 0x201004 → busLoad s pa .word k = .ok (BitVec.ofNat 64 s.plic.sclaim.toNat, s) ∧
        busStore s pa .word v k = .ok (s.setPlic { s.plic with sclaim := BitVec.ofNat 32 v.toNat })) ∧
      (off ∉ [0x1000, 0x2080, 0x201000, 0x201004] →
        busLoad s pa .word k = .ok (0, s) ∧ busStore s pa .word v k = .ok s))

/-- The block device's registers (60_exceptions.md R535 to R537): each read-write offset reads its own register and sets it
alone, so it reads back what was stored; a read-only one has its value and ignores writes; every other offset reads 0 and
ignores writes. No load changes anything. -/
def Obligations.BlockDeviceRegisters : Prop :=
  ∀ (s : State) (pa v : Word) (off : Nat) (k : AccessKind), s.cfg.admissible = true → AtOffset s.cfg.virtio off pa →
    (∀ p ∈ [(0x000, 0x74726976), (0x004, 1), (0x008, 2), (0x00C, 0x554D4551), (0x010, 0), (0x034, 8)], p.1 = off →
      busLoad s pa .word k = .ok (BitVec.ofNat 64 p.2, s) ∧ busStore s pa .word v k = .ok s) ∧
    (off = 0x020 → busLoad s pa .word k = .ok (BitVec.ofNat 64 s.virtio.driverFeatures.toNat, s) ∧
      busStore s pa .word v k = .ok (s.setVirtio { s.virtio with driverFeatures := BitVec.ofNat 32 v.toNat })) ∧
    (off = 0x028 → busLoad s pa .word k = .ok (BitVec.ofNat 64 s.virtio.guestPageSize.toNat, s) ∧
      busStore s pa .word v k = .ok (s.setVirtio { s.virtio with guestPageSize := BitVec.ofNat 32 v.toNat })) ∧
    (off = 0x030 → busLoad s pa .word k = .ok (BitVec.ofNat 64 s.virtio.queueSel.toNat, s) ∧
      busStore s pa .word v k = .ok (s.setVirtio { s.virtio with queueSel := BitVec.ofNat 32 v.toNat })) ∧
    (off = 0x038 → busLoad s pa .word k = .ok (BitVec.ofNat 64 s.virtio.queueNum.toNat, s) ∧
      busStore s pa .word v k = .ok (s.setVirtio { s.virtio with queueNum := BitVec.ofNat 32 v.toNat })) ∧
    (off = 0x040 → busLoad s pa .word k = .ok (BitVec.ofNat 64 s.virtio.queuePfn.toNat, s) ∧
      busStore s pa .word v k = .ok (s.setVirtio { s.virtio with queuePfn := BitVec.ofNat 32 v.toNat })) ∧
    (off = 0x050 → busLoad s pa .word k = .ok (BitVec.ofNat 64 s.virtio.queueNotify.toNat, s) ∧
      busStore s pa .word v k = .ok (s.setVirtio { s.virtio with queueNotify := BitVec.ofNat 32 v.toNat })) ∧
    (off = 0x070 → busLoad s pa .word k = .ok (BitVec.ofNat 64 s.virtio.status.toNat, s) ∧
      busStore s pa .word v k = .ok (s.setVirtio { s.virtio with status := BitVec.ofNat 32 v.toNat })) ∧
    (off ∈ [0x020, 0x028, 0x030, 0x038, 0x040, 0x050, 0x070] →
      ∃ t, busStore s pa .word v k = .ok t ∧ busLoad t pa .word k = .ok (BitVec.ofNat 64 (v.toNat % 2 ^ 32), t)) ∧
    (off ∉ [0x000, 0x004, 0x008, 0x00C, 0x010, 0x020, 0x028, 0x030, 0x034, 0x038, 0x040, 0x050, 0x070] →
      busLoad s pa .word k = .ok (0, s) ∧ busStore s pa .word v k = .ok s)

/-- The console's registers (60_exceptions.md R520, R526 to R529): a store at offset 0 emits the byte and changes no
register; a load at offset 0 gives the register and clears LSR bit 0; every other offset stores and reads back. -/
def Obligations.ConsoleRegisters : Prop :=
  ∀ (s : State) (pa v : Word) (off : Nat) (k : AccessKind), s.cfg.admissible = true → AtOffset s.cfg.uart off pa →
    (off = 0 →
      busStore s pa .byte v k = .ok (s.setOut (s.out ++ [BitVec.ofNat 8 v.toNat])) ∧
      ∃ u, busLoad s pa .byte k = .ok (BitVec.ofNat 64 (s.uart.reg 0).toNat, s.setUart u) ∧ u.intr = s.uart.intr ∧
        (∀ q, q ≠ 5 → u.reg q = s.uart.reg q) ∧
        ∀ b, b < 8 → (u.reg 5).getLsbD b = if b = 0 then false else (s.uart.reg 5).getLsbD b) ∧
    (off ≠ 0 →
      busLoad s pa .byte k = .ok (BitVec.ofNat 64 (s.uart.reg off).toNat, s) ∧
      ∃ u, busStore s pa .byte v k = .ok (s.setUart u) ∧ u.intr = s.uart.intr ∧
        ∀ q, u.reg q = if q = off then BitVec.ofNat 8 v.toNat else s.uart.reg q)

/-- Only a byte load at the console's offset 0 has a side effect (20_memory.md R113), and where a load succeeds the store
of that width there succeeds after it (60_exceptions.md R456, the AMO's write). -/
def Obligations.LoadsAreHarmless : Prop :=
  ∀ (s s' : State) (pa v w : Word) (n : Width) (k : AccessKind), s.cfg.admissible = true →
    busLoad s pa n k = .ok (v, s') →
    (s' ≠ s → n = .byte ∧ pa.toNat = s.cfg.uart.base ∧ InWindow s.cfg.uart pa.toNat) ∧
    (∃ t, busStore s' pa n w k = .ok t) ∧ v.toNat < 2 ^ (8 * n.bytes)

/-! ## Translation -/

/-- What translation depends on (20_memory.md R120, R121, R124, R128): it is the identity with paging off; it fails only
with the page fault or the access fault of its kind; bits 63:39 and the mode do not matter; and where it succeeds for one
kind it gives the same address for every kind. -/
def Obligations.TranslationDependsOn : Prop :=
  ∀ (s : State) (va vb : Word) (k j : AccessKind) (m : Mode),
    (s.paging = false → translate s va k = .ok va) ∧
    (∀ e, translate s va k = .error e → e = k.pageFault ∨ e = k.accessFault) ∧
    (s.paging = true → va.toNat % 2 ^ 39 = vb.toNat % 2 ^ 39 → translate s va k = translate s vb k) ∧
    translate (s.setMode m) va k = translate s va k ∧
    (∀ pa, translate s va k = .ok pa → translate s va j = .ok pa)

/-- One level of the walk (20_memory.md R123, R125 to R127), and where it starts: the entry's address, the three faults, the
leaf's address with the offset below its level taken from the virtual address, and the next table. -/
def Obligations.WalkLevel : Prop :=
  ∀ (s : State) (va a ea : Word) (k : AccessKind) (i : Nat), i < 3 →
    ea.toNat = (a.toNat + 8 * (va.toNat / 2 ^ (12 + 9 * i) % 512)) % 2 ^ 64 →
    (s.paging = true → translate s va k = walk s va k 3 s.ptRoot) ∧
    (∀ e, busLoad s ea .double .load = .error e → walk s va k (i + 1) a = .error k.accessFault) ∧
    ∀ pte s', busLoad s ea .double .load = .ok (pte, s') →
      (bit pte 0 = 0 ∨ (bit pte 1 = 0 ∧ bit pte 2 = 1) → walk s va k (i + 1) a = .error k.pageFault) ∧
      (bit pte 0 = 1 → bit pte 1 = 1 ∨ (bit pte 2 = 0 ∧ bit pte 3 = 1) →
        ∃ pa, walk s va k (i + 1) a = .ok pa ∧
          pa.toNat = pte.toNat / 2 ^ 10 % 2 ^ 44 / 2 ^ (9 * i) * 2 ^ (9 * i) * 4096 + va.toNat % 2 ^ (12 + 9 * i)) ∧
      (bit pte 0 = 1 → bit pte 1 = 0 → bit pte 2 = 0 → bit pte 3 = 0 →
        (i = 0 → walk s va k (i + 1) a = .error k.pageFault) ∧
        (0 < i → ∀ a' : Word, a'.toNat = pte.toNat / 2 ^ 10 % 2 ^ 44 * s.cfg.pageSize % 2 ^ 64 →
          walk s va k (i + 1) a = walk s va k i a'))

/-! ## Integer instructions -/

/-- ADDI, ADD and SUB modulo 2^64, and SLTI, SLTIU, SLT and SLTU giving 1 or 0, SLTIU comparing unsigned with the
sign-extended immediate (43_integer_ops.md R291 to R293, R300, R301, R303, R304); nothing but `x[rd]` changes (R290). -/
def Obligations.AddSubtractAndCompare : Prop :=
  ∀ (s : State) (rd rs1 rs2 : RegIdx) (imm : BitVec 12),
    let a := s.reg rs1
    let b := s.reg rs2
    Computes (.addi rd rs1 imm) rd s (fun v => (v.toNat : Int) = (a.toNat + imm.toInt) % 2 ^ 64) ∧
    Computes (.add rd rs1 rs2) rd s (fun v => v.toNat = (a.toNat + b.toNat) % 2 ^ 64) ∧
    Computes (.sub rd rs1 rs2) rd s (fun v => (v.toNat : Int) = (a.toNat - b.toNat) % 2 ^ 64) ∧
    Computes (.slti rd rs1 imm) rd s (fun v => v.toNat = if a.toInt < imm.toInt then 1 else 0) ∧
    Computes (.sltiu rd rs1 imm) rd s (fun v => v.toNat = if (a.toNat : Int) < imm.toInt % 2 ^ 64 then 1 else 0) ∧
    Computes (.slt rd rs1 rs2) rd s (fun v => v.toNat = if a.toInt < b.toInt then 1 else 0) ∧
    Computes (.sltu rd rs1 rs2) rd s (fun v => v.toNat = if a.toNat < b.toNat then 1 else 0)

/-- XORI, ORI, ANDI, XOR, OR and AND (43_integer_ops.md R294 to R296, R305, R308, R309), bit by bit; above bit 11 an
immediate's bits are its sign. -/
def Obligations.LogicInstructions : Prop :=
  ∀ (s : State) (rd rs1 rs2 : RegIdx) (imm : BitVec 12),
    let a := s.reg rs1
    let b := s.reg rs2
    let c := fun j => imm.getLsbD (min j 11)
    Computes (.xori rd rs1 imm) rd s (fun v => ∀ j, j < 64 → v.getLsbD j = (a.getLsbD j != c j)) ∧
    Computes (.ori rd rs1 imm) rd s (fun v => ∀ j, j < 64 → v.getLsbD j = (a.getLsbD j || c j)) ∧
    Computes (.andi rd rs1 imm) rd s (fun v => ∀ j, j < 64 → v.getLsbD j = (a.getLsbD j && c j)) ∧
    Computes (.xor rd rs1 rs2) rd s (fun v => ∀ j, j < 64 → v.getLsbD j = (a.getLsbD j != b.getLsbD j)) ∧
    Computes (.or rd rs1 rs2) rd s (fun v => ∀ j, j < 64 → v.getLsbD j = (a.getLsbD j || b.getLsbD j)) ∧
    Computes (.and rd rs1 rs2) rd s (fun v => ∀ j, j < 64 → v.getLsbD j = (a.getLsbD j && b.getLsbD j))

/-- The 64-bit shifts (43_integer_ops.md R297 to R299, R302, R306, R307): the amount is the 6-bit field or the low 6 bits of
`x[rs2]`; left modulo 2^64, logical right, and arithmetic right rounding down. -/
def Obligations.ShiftInstructions : Prop :=
  ∀ (s : State) (rd rs1 rs2 : RegIdx) (shamt : BitVec 6),
    let a := s.reg rs1
    let k : Nat := (s.reg rs2).toNat % 64
    Computes (.slli rd rs1 shamt) rd s (fun v => v.toNat = a.toNat * 2 ^ shamt.toNat % 2 ^ 64) ∧
    Computes (.srli rd rs1 shamt) rd s (fun v => v.toNat = a.toNat / 2 ^ shamt.toNat) ∧
    Computes (.srai rd rs1 shamt) rd s (fun v => v.toInt = a.toInt / 2 ^ shamt.toNat) ∧
    Computes (.sll rd rs1 rs2) rd s (fun v => v.toNat = a.toNat * 2 ^ k % 2 ^ 64) ∧
    Computes (.srl rd rs1 rs2) rd s (fun v => v.toNat = a.toNat / 2 ^ k) ∧
    Computes (.sra rd rs1 rs2) rd s (fun v => v.toInt = a.toInt / 2 ^ k)

/-- The W forms (44_word_ops.md R330 to R339): each result is the signed 32-bit number of a computation on the low 32 bits;
shift amounts are 5 bits. -/
def Obligations.WordInstructions : Prop :=
  ∀ (s : State) (rd rs1 rs2 : RegIdx) (imm : BitVec 12) (shamt : BitVec 5),
    let a : Nat := (s.reg rs1).toNat % 2 ^ 32
    let b : Nat := (s.reg rs2).toNat % 2 ^ 32
    let k : Nat := (s.reg rs2).toNat % 32
    Computes (.addiw rd rs1 imm) rd s (fun v => v.toInt = signed 32 (a + imm.toInt)) ∧
    Computes (.slliw rd rs1 shamt) rd s (fun v => v.toInt = signed 32 (a * 2 ^ shamt.toNat : Nat)) ∧
    Computes (.srliw rd rs1 shamt) rd s (fun v => v.toInt = signed 32 (a / 2 ^ shamt.toNat : Nat)) ∧
    Computes (.sraiw rd rs1 shamt) rd s (fun v => v.toInt = signed 32 a / 2 ^ shamt.toNat) ∧
    Computes (.addw rd rs1 rs2) rd s (fun v => v.toInt = signed 32 (a + b : Nat)) ∧
    Computes (.subw rd rs1 rs2) rd s (fun v => v.toInt = signed 32 ((a : Int) - b)) ∧
    Computes (.sllw rd rs1 rs2) rd s (fun v => v.toInt = signed 32 (a * 2 ^ k : Nat)) ∧
    Computes (.srlw rd rs1 rs2) rd s (fun v => v.toInt = signed 32 (a / 2 ^ k : Nat)) ∧
    Computes (.sraw rd rs1 rs2) rd s (fun v => v.toInt = signed 32 a / 2 ^ k)

/-- MUL, MULH, MULHSU, MULHU and MULW (45_muldiv.md R352 to R355, R360): the halves of the exact product. -/
def Obligations.MultiplyInstructions : Prop :=
  ∀ (s : State) (rd rs1 rs2 : RegIdx),
    let a := s.reg rs1
    let b := s.reg rs2
    Computes (.mul rd rs1 rs2) rd s (fun v => v.toNat = a.toNat * b.toNat % 2 ^ 64) ∧
    Computes (.mulh rd rs1 rs2) rd s (fun v => v.toInt = a.toInt * b.toInt / 2 ^ 64) ∧
    Computes (.mulhsu rd rs1 rs2) rd s (fun v => v.toInt = a.toInt * b.toNat / 2 ^ 64) ∧
    Computes (.mulhu rd rs1 rs2) rd s (fun v => v.toNat = a.toNat * b.toNat / 2 ^ 64) ∧
    Computes (.mulw rd rs1 rs2) rd s
      (fun v => v.toInt = signed 32 ((a.toNat % 2 ^ 32) * (b.toNat % 2 ^ 32) : Nat))

/-- DIV, DIVU, REM and REMU (45_muldiv.md R356 to R359): truncating, with the corners of a zero divisor and of overflow;
they never trap. -/
def Obligations.DivideInstructions : Prop :=
  ∀ (s : State) (rd rs1 rs2 : RegIdx),
    let a := s.reg rs1
    let b := s.reg rs2
    Computes (.div rd rs1 rs2) rd s (fun v => v.toInt =
      if b.toInt = 0 then -1 else if a.toInt = -2 ^ 63 ∧ b.toInt = -1 then -2 ^ 63 else a.toInt.tdiv b.toInt) ∧
    Computes (.divu rd rs1 rs2) rd s (fun v => v.toNat = if b.toNat = 0 then 2 ^ 64 - 1 else a.toNat / b.toNat) ∧
    Computes (.rem rd rs1 rs2) rd s (fun v => v.toInt =
      if b.toInt = 0 then a.toInt else if a.toInt = -2 ^ 63 ∧ b.toInt = -1 then 0 else a.toInt.tmod b.toInt) ∧
    Computes (.remu rd rs1 rs2) rd s (fun v => v.toNat = if b.toNat = 0 then a.toNat else a.toNat % b.toNat)

/-- DIVW, DIVUW, REMW and REMUW (45_muldiv.md R361 to R364), on the low 32 bits, every result sign-extended. -/
def Obligations.DivideWordInstructions : Prop :=
  ∀ (s : State) (rd rs1 rs2 : RegIdx),
    let a := signed 32 (s.reg rs1).toNat
    let b := signed 32 (s.reg rs2).toNat
    let ua : Nat := (s.reg rs1).toNat % 2 ^ 32
    let ub : Nat := (s.reg rs2).toNat % 2 ^ 32
    Computes (.divw rd rs1 rs2) rd s (fun v => v.toInt =
      if b = 0 then -1 else if a = -2 ^ 31 ∧ b = -1 then -2 ^ 31 else a.tdiv b) ∧
    Computes (.divuw rd rs1 rs2) rd s (fun v => v.toInt = signed 32 (if ub = 0 then 2 ^ 32 - 1 else ua / ub : Nat)) ∧
    Computes (.remw rd rs1 rs2) rd s (fun v => v.toInt =
      if b = 0 then a else if a = -2 ^ 31 ∧ b = -1 then 0 else a.tmod b) ∧
    Computes (.remuw rd rs1 rs2) rd s (fun v => v.toInt = signed 32 (if ub = 0 then ua else ua % ub : Nat))

/-- The laws of division (45_muldiv.md R365): quotient × divisor + remainder is the dividend, the remainder is smaller than
the divisor and takes the dividend's sign, and the two corners. -/
def Obligations.DivisionLaws : Prop :=
  ∀ (w : Nat), w = 32 ∨ w = 64 → ∀ a b : BitVec w,
    (b ≠ 0 → ¬(a = BitVec.intMin w ∧ b = BitVec.allOnes w) →
      divSigned a b * b + remSigned a b = a ∧ (remSigned a b).toInt.natAbs < b.toInt.natAbs ∧
      (remSigned a b = 0 ∨ ((remSigned a b).toInt < 0 ↔ a.toInt < 0))) ∧
    (b ≠ 0 → divUnsigned a b * b + remUnsigned a b = a ∧ (remUnsigned a b).toNat < b.toNat) ∧
    (b = 0 → divSigned a b = BitVec.allOnes w ∧ remSigned a b = a ∧ divUnsigned a b = BitVec.allOnes w ∧
      remUnsigned a b = a) ∧
    (a = BitVec.intMin w → b = BitVec.allOnes w → divSigned a b = BitVec.intMin w ∧ remSigned a b = 0)

/-! ## Control -/

/-- LUI and AUIPC (41_control.md R232, R233): the immediate over twelve zeros, sign-extended; AUIPC adds the instruction's
own address. -/
def Obligations.UpperImmediates : Prop :=
  ∀ (s : State) (rd : RegIdx) (imm : BitVec 20),
    Computes (.lui rd imm) rd s (fun v => v.toInt = imm.toInt * 4096) ∧
    Computes (.auipc rd imm) rd s (fun v => (v.toNat : Int) = ((s.pc.toNat : Int) - 4 + imm.toInt * 4096) % 2 ^ 64)

/-- JAL and JALR (41_control.md R231, R234, R235): to the target with the link written and nothing else changed, `rd = x0`
and `rd = rs1` included; a target that is no multiple of 4 traps with code 0 instead. -/
def Obligations.Jumps : Prop :=
  ∀ (s : State) (rd rs1 : RegIdx) (off : BitVec 21) (imm : BitVec 12) (target va : Word),
    (RelativeTarget s off.toInt target →
      (target.toNat % 4 = 0 → ∃ t, exec (.jal rd off) s = .next t ∧ t.pc = target ∧ t.reg rd = written rd s.pc ∧
        t.isWritten rd = true ∧ OnlyRegAndPc rd s t) ∧
      (target.toNat % 4 ≠ 0 → Traps (.jal rd off) s 0)) ∧
    (EffectiveAddress s rs1 imm va → target.toNat = va.toNat / 2 * 2 →
      (target.toNat % 4 = 0 → ∃ t, exec (.jalr rd rs1 imm) s = .next t ∧ t.pc = target ∧ t.reg rd = written rd s.pc ∧
        t.isWritten rd = true ∧ OnlyRegAndPc rd s t) ∧
      (target.toNat % 4 ≠ 0 → Traps (.jalr rd rs1 imm) s 0))

/-- The six branches (41_control.md R236 to R242), taken, not taken and misaligned (R231). -/
def Obligations.Branches : Prop :=
  ∀ (s : State) (rs1 rs2 : RegIdx) (off : BitVec 13),
    BranchMeans (.beq rs1 rs2 off) (s.reg rs1 = s.reg rs2) off s ∧
    BranchMeans (.bne rs1 rs2 off) (s.reg rs1 ≠ s.reg rs2) off s ∧
    BranchMeans (.blt rs1 rs2 off) ((s.reg rs1).toInt < (s.reg rs2).toInt) off s ∧
    BranchMeans (.bge rs1 rs2 off) ((s.reg rs1).toInt ≥ (s.reg rs2).toInt) off s ∧
    BranchMeans (.bltu rs1 rs2 off) ((s.reg rs1).toNat < (s.reg rs2).toNat) off s ∧
    BranchMeans (.bgeu rs1 rs2 off) ((s.reg rs1).toNat ≥ (s.reg rs2).toNat) off s

/-! ## Loads and stores -/

/-- A load from DRAM (42_loads_stores.md R260 to R267; 20_memory.md R101): `x[rd]` gets the extended little-endian number
of the bytes at the translated address, at every alignment, and nothing else changes. -/
def Obligations.LoadsFromDram : Prop :=
  ∀ (s : State) (rd rs1 : RegIdx) (imm : BitVec 12) (va pa : Word), s.cfg.admissible = true →
    EffectiveAddress s rs1 imm va → translate s va .load = .ok pa →
    ∀ f ∈ loadForms rd rs1 imm, InDram s pa.toNat f.2.1.bytes →
      Computes f.1 rd s (Extended f.2.1 f.2.2 (littleEndian s pa.toNat f.2.1.bytes))

/-- A load from anywhere (42_loads_stores.md R260, R273): `x[rd]` gets what the bus gives and the rest is as the bus leaves
it, a discarded value included; a translation fault or a bus fault traps instead. -/
def Obligations.LoadsFromBus : Prop :=
  ∀ (s : State) (rd rs1 : RegIdx) (imm : BitVec 12) (va : Word), EffectiveAddress s rs1 imm va →
    ∀ f ∈ loadForms rd rs1 imm,
      (∀ e, translate s va .load = .error e → Traps f.1 s e.code) ∧
      ∀ pa, translate s va .load = .ok pa →
        (∀ e, busLoad s pa f.2.1 .load = .error e → Traps f.1 s 5) ∧
        ∀ x s', busLoad s pa f.2.1 .load = .ok (x, s') →
          ∃ t v, exec f.1 s = .next t ∧ Extended f.2.1 f.2.2 x.toNat v ∧ t.reg rd = written rd v ∧ OnlyReg rd s' t

/-- A store to DRAM (42_loads_stores.md R268 to R272): the low bytes of `x[rs2]` go to the translated address, and nothing
else changes, the reservation included. -/
def Obligations.StoresToDram : Prop :=
  ∀ (s : State) (rs1 rs2 : RegIdx) (imm : BitVec 12) (va pa : Word), s.cfg.admissible = true →
    EffectiveAddress s rs1 imm va → translate s va .store = .ok pa →
    ∀ f ∈ storeForms rs1 rs2 imm, InDram s pa.toNat f.2.bytes →
      ∃ t, exec f.1 s = .next t ∧ StoredAt s t pa.toNat f.2.bytes (s.reg rs2) ∧
        SameRegs s t ∧ t.pc = s.pc ∧ t.resv = s.resv ∧ SameSystem s t ∧ SameDevices s t

/-- A store to anywhere (42_loads_stores.md R268, R273): it is one bus store of the low bytes of `x[rs2]`; a translation
fault or a bus fault traps instead. -/
def Obligations.StoresToBus : Prop :=
  ∀ (s : State) (rs1 rs2 : RegIdx) (imm : BitVec 12) (va : Word), EffectiveAddress s rs1 imm va →
    ∀ f ∈ storeForms rs1 rs2 imm,
      (∀ e, translate s va .store = .error e → Traps f.1 s e.code) ∧
      ∀ pa, translate s va .store = .ok pa →
        (∀ e, busStore s pa f.2 (s.reg rs2) .store = .error e → Traps f.1 s 7) ∧
        ∀ t, busStore s pa f.2 (s.reg rs2) .store = .ok t → exec f.1 s = .next t

/-! ## System -/

/-- FENCE, FENCE.I, WFI and SFENCE.VMA change nothing, in every mode and with every value of the fields they ignore
(46_system.md R370, R371, R374, R375). -/
def Obligations.NoOperations : Prop :=
  ∀ (s : State) (fm pred succ : BitVec 4) (imm : BitVec 12) (rs1 rs2 rd : RegIdx),
    exec (.fence fm pred succ rs1 rd) s = .next s ∧ exec (.fenceI imm rs1 rd) s = .next s ∧
    exec (.wfi rs1 rd) s = .next s ∧ exec (.sfenceVma rs1 rs2 rd) s = .next s

/-- ECALL traps with 8, 9 or 11 by the mode, EBREAK with 3 (46_system.md R372, R373). -/
def Obligations.EnvironmentCallAndBreakpoint : Prop :=
  ∀ (s : State) (rs1 rd : RegIdx),
    (s.mode = .user → Traps (.ecall rs1 rd) s 8) ∧ (s.mode = .supervisor → Traps (.ecall rs1 rd) s 9) ∧
    (s.mode = .machine → Traps (.ecall rs1 rd) s 11) ∧ Traps (.ebreak rs1 rd) s 3

/-- SRET and MRET in every mode (46_system.md R376 to R378; 60_exceptions.md R466): the pc, the mode, the status word bit by
bit, and nothing else; MRET with MPP = 2 is a model fault. -/
def Obligations.TrapReturns : Prop :=
  ∀ (s : State) (rs1 rd : RegIdx),
    (∃ t, exec (.sret rs1 rd) s = .next t ∧ t.pc = s.csrRaw Csr.sepc ∧
      t.mode = (if bit (s.csrRaw Csr.sstatus) 8 = 1 then .supervisor else .user) ∧
      (∀ j, j < 64 → (t.csrRaw Csr.sstatus).getLsbD j =
        if j = 1 then (s.csrRaw Csr.sstatus).getLsbD 5 else if j = 5 then true else if j = 8 then false
        else (s.csrRaw Csr.sstatus).getLsbD j) ∧
      t.resv = s.resv ∧ t.halted = s.halted ∧ TrapFrame [Csr.sstatus] s t) ∧
    (∀ m : Mode, (s.csrRaw Csr.mstatus).toNat / 2 ^ 11 % 4 = (match m with | .user => 0 | .supervisor => 1 | .machine => 3) →
      ∃ t, exec (.mret rs1 rd) s = .next t ∧ t.pc = s.csrRaw Csr.mepc ∧ t.mode = m ∧
        (∀ j, j < 64 → (t.csrRaw Csr.mstatus).getLsbD j =
          if j = 3 then (s.csrRaw Csr.mstatus).getLsbD 7 else if j = 7 then true else if j = 11 ∨ j = 12 then false
          else (s.csrRaw Csr.mstatus).getLsbD j) ∧
        t.resv = s.resv ∧ t.halted = s.halted ∧ TrapFrame [Csr.mstatus] s t) ∧
    ((s.csrRaw Csr.mstatus).toNat / 2 ^ 11 % 4 = 2 → exec (.mret rs1 rd) s = .fault .mretReservedMode)

/-! ## CSR instructions -/

/-- A CSR instruction on any number but `sie` and `satp` (47_csr.md R390 to R396; 10_state.md R45): `x[rd]` gets the prior
value, the CSR the new one, in every mode, and nothing else changes. -/
def Obligations.CsrInstructions : Prop :=
  ∀ (s : State) (rd rs1 : RegIdx) (uimm : BitVec 5) (a : CsrNum), a ≠ 0x104 → a ≠ 0x180 →
    ∀ f ∈ csrForms rd rs1 uimm a s, ∃ t, exec f.1 s = .next t ∧ t.reg rd = written rd (s.csrRaw a) ∧
      (∀ b, t.csrRaw b = if b = a then f.2 (s.csrRaw a) else s.csrRaw b) ∧
      SameRegsBut rd s t ∧ t.pc = s.pc ∧ t.mode = s.mode ∧ t.paging = s.paging ∧ t.ptRoot = s.ptRoot ∧ t.resv = s.resv ∧
      t.halted = s.halted ∧ t.cfg = s.cfg ∧ t.input = s.input ∧ SameMemory s t ∧ SameDevices s t

/-- A CSR instruction on `sie` and on `satp` (10_state.md R46, R47, R56; 47_csr.md R397, R398). On `sie` it reads
`mie & mideleg` and writes the delegated bits of `mie`, and no entry 0x104 is touched; on `satp` the value is stored, and
the root and the paging flag are derived from it at once. -/
def Obligations.CsrInstructionsOnSieAndSatp : Prop :=
  ∀ (s : State) (rd rs1 : RegIdx) (uimm : BitVec 5),
    (∀ f ∈ csrForms rd rs1 uimm 0x104 s, ∃ t, exec f.1 s = .next t ∧
      t.reg rd = written rd (s.csrRaw Csr.mie &&& s.csrRaw Csr.mideleg) ∧
      (∀ j, j < 64 → (t.csrRaw Csr.mie).getLsbD j =
        if (s.csrRaw Csr.mideleg).getLsbD j = true
        then (f.2 (s.csrRaw Csr.mie &&& s.csrRaw Csr.mideleg)).getLsbD j else (s.csrRaw Csr.mie).getLsbD j) ∧
      (∀ b, b ≠ Csr.mie → t.csrRaw b = s.csrRaw b) ∧
      SameRegsBut rd s t ∧ t.pc = s.pc ∧ t.mode = s.mode ∧ t.paging = s.paging ∧ t.ptRoot = s.ptRoot ∧ t.resv = s.resv ∧
      t.halted = s.halted ∧ t.cfg = s.cfg ∧ t.input = s.input ∧ SameMemory s t ∧ SameDevices s t) ∧
    (∀ f ∈ csrForms rd rs1 uimm 0x180 s, ∃ t, exec f.1 s = .next t ∧ t.reg rd = written rd (s.csrRaw 0x180) ∧
      (∀ b, t.csrRaw b = if b = 0x180 then f.2 (s.csrRaw 0x180) else s.csrRaw b) ∧
      (t.paging = true ↔ (f.2 (s.csrRaw 0x180)).toNat / 2 ^ 60 = 8) ∧
      t.ptRoot.toNat = (f.2 (s.csrRaw 0x180)).toNat % 2 ^ 44 * s.cfg.pageSize % 2 ^ 64 ∧
      SameRegsBut rd s t ∧ t.pc = s.pc ∧ t.mode = s.mode ∧ t.resv = s.resv ∧
      t.halted = s.halted ∧ t.cfg = s.cfg ∧ t.input = s.input ∧ SameMemory s t ∧ SameDevices s t)

/-! ## Atomic instructions -/

/-- LR.W and LR.D (48_atomic.md R413, R415, R416): the value sign-extended, the reservation set to the physical address,
nothing else changed; misaligned, untranslatable or refused by the bus they trap. -/
def Obligations.LoadReservedInstructions : Prop :=
  ∀ (s : State) (rd rs1 : RegIdx) (aq rl : Bool),
    ∀ f ∈ [(Instr.lrW rd rs1 aq rl, Width.word), (Instr.lrD rd rs1 aq rl, Width.double)],
      ((s.reg rs1).toNat % f.2.bytes ≠ 0 → Traps f.1 s 4) ∧
      ((s.reg rs1).toNat % f.2.bytes = 0 →
        (∀ e, translate s (s.reg rs1) .load = .error e → Traps f.1 s e.code) ∧
        ∀ pa, translate s (s.reg rs1) .load = .ok pa →
          (∀ e, busLoad s pa f.2 .load = .error e → Traps f.1 s 5) ∧
          ∀ x s', busLoad s pa f.2 .load = .ok (x, s') → ∃ t v, exec f.1 s = .next t ∧
            v.toInt = signed (8 * f.2.bytes) x.toNat ∧ t.reg rd = written rd v ∧ t.resv = some pa ∧
            OnlyRegAndResv rd s t)

/-- SC.W and SC.D on DRAM (48_atomic.md R411, R414, R417 to R419): with a reservation on the translated address the low
bytes of `x[rs2]` are stored and `x[rd]` is 0; without one nothing is stored and `x[rd]` is 1; either way the reservation
is gone. -/
def Obligations.StoreConditionalInstructions : Prop :=
  ∀ (s : State) (rd rs1 rs2 : RegIdx) (aq rl : Bool) (pa : Word), s.cfg.admissible = true →
    translate s (s.reg rs1) .store = .ok pa →
    ∀ f ∈ [(Instr.scW rd rs1 rs2 aq rl, Width.word), (Instr.scD rd rs1 rs2 aq rl, Width.double)],
      (s.reg rs1).toNat % f.2.bytes = 0 →
      (s.resv = some pa → InDram s pa.toNat f.2.bytes → ∃ t, exec f.1 s = .next t ∧ t.reg rd = 0 ∧ t.resv = none ∧
        StoredAt s t pa.toNat f.2.bytes (s.reg rs2) ∧ SameRegsBut rd s t ∧ t.pc = s.pc ∧ SameSystem s t ∧
        SameDevices s t) ∧
      (s.resv = some pa → ∀ t1, busStore s pa f.2 (s.reg rs2) .store = .ok t1 → ∃ t, exec f.1 s = .next t ∧
        t.reg rd = 0 ∧ t.resv = none ∧ OnlyRegAndResv rd t1 t) ∧
      (s.resv ≠ some pa → ∃ t, exec f.1 s = .next t ∧ t.reg rd = written rd 1 ∧ t.resv = none ∧ OnlyRegAndResv rd s t)

/-- When SC and the AMOs trap (48_atomic.md R412, R414, R420; 60_exceptions.md R456): misalignment first (code 6), then
translation, then the bus (code 7), SC reaching the bus only with its reservation. -/
def Obligations.StoringAtomicsTrap : Prop :=
  ∀ (s : State) (rd rs1 rs2 : RegIdx) (aq rl : Bool),
    ∀ f ∈ storingAtomics rd rs1 rs2 aq rl,
      ((s.reg rs1).toNat % f.2.bytes ≠ 0 → Traps f.1 s 6) ∧
      ((s.reg rs1).toNat % f.2.bytes = 0 →
        (∀ e, translate s (s.reg rs1) .store = .error e → Traps f.1 s e.code) ∧
        ∀ pa e, translate s (s.reg rs1) .store = .ok pa → busLoad s pa f.2 .store = .error e →
          (isReservation f.1 = false ∨ s.resv = some pa) → Traps f.1 s 7)

/-- The nine AMOs on words (48_atomic.md R420 to R430): the word at the translated address is replaced by `Op` of it and the
low word of `x[rs2]`, `x[rd]` gets the prior word sign-extended, and nothing else changes; on a device register the same
through the bus. -/
def Obligations.AmosOnWords : Prop :=
  ∀ (s : State) (rd rs1 rs2 : RegIdx) (aq rl : Bool) (pa : Word), s.cfg.admissible = true →
    (s.reg rs1).toNat % 4 = 0 → translate s (s.reg rs1) .store = .ok pa →
    ∀ f ∈ amoWordForms rd rs1 rs2 aq rl,
      (InDram s pa.toNat 4 →
        ∃ t v, exec f.1 s = .next t ∧ v.toInt = signed 32 (littleEndian s pa.toNat 4) ∧ t.reg rd = written rd v ∧
          StoredAt s t pa.toNat 4
            (BitVec.ofNat 64 (f.2 (BitVec.ofNat 32 (littleEndian s pa.toNat 4)) (BitVec.ofNat 32 (s.reg rs2).toNat)).toNat) ∧
          SameRegsBut rd s t ∧ t.pc = s.pc ∧ t.resv = s.resv ∧ SameSystem s t ∧ SameDevices s t) ∧
      (∀ x s', busLoad s pa .word .store = .ok (x, s') →
        ∃ t t1 v, busStore s pa .word
            (BitVec.ofNat 64 (f.2 (BitVec.ofNat 32 x.toNat) (BitVec.ofNat 32 (s.reg rs2).toNat)).toNat) .store = .ok t1 ∧
          exec f.1 s = .next t ∧ v.toInt = signed 32 x.toNat ∧ t.reg rd = written rd v ∧ OnlyReg rd t1 t)

/-- The nine AMOs on doublewords (48_atomic.md R420, R421, R431 to R439). -/
def Obligations.AmosOnDoublewords : Prop :=
  ∀ (s : State) (rd rs1 rs2 : RegIdx) (aq rl : Bool) (pa : Word), s.cfg.admissible = true →
    (s.reg rs1).toNat % 8 = 0 → translate s (s.reg rs1) .store = .ok pa →
    ∀ f ∈ amoDoubleForms rd rs1 rs2 aq rl,
      (InDram s pa.toNat 8 →
        ∃ t v, exec f.1 s = .next t ∧ v.toNat = littleEndian s pa.toNat 8 ∧ t.reg rd = written rd v ∧
          StoredAt s t pa.toNat 8 (f.2 v (s.reg rs2)) ∧
          SameRegsBut rd s t ∧ t.pc = s.pc ∧ t.resv = s.resv ∧ SameSystem s t ∧ SameDevices s t) ∧
      (∀ x s', busLoad s pa .double .store = .ok (x, s') →
        ∃ t t1, busStore s pa .double (f.2 x (s.reg rs2)) .store = .ok t1 ∧
          exec f.1 s = .next t ∧ t.reg rd = written rd x ∧ OnlyReg rd t1 t)

/-! ## The block device -/

/-- The reads of a disk request (60_exceptions.md R542, R543), where all of them fall in DRAM: the addresses of the rings,
of the two descriptors and of the header, and what each field gives. -/
def Obligations.DiskRequestFields : Prop :=
  ∀ (s : State) (desc idxAt idx headAt head d0 hdr d1 : Nat), s.cfg.admissible = true →
    desc = s.virtio.queuePfn.toNat * s.virtio.guestPageSize.toNat % 2 ^ 64 →
    idxAt = (desc + 0x80 + 2) % 2 ^ 64 → InDram s idxAt 2 → idx = littleEndian s idxAt 2 →
    headAt = (desc + 0x80 + 4 + 2 * ((idx + 7) % 8)) % 2 ^ 64 → InDram s headAt 2 → head = littleEndian s headAt 2 →
    d0 = (desc + 16 * head) % 2 ^ 64 → InDram s d0 16 → hdr = littleEndian s d0 8 →
    d1 = (desc + 16 * littleEndian s (d0 + 14) 2) % 2 ^ 64 → InDram s d1 16 → InDram s ((hdr + 8) % 2 ^ 64) 8 →
    readRequest s = .ok ({
      buf := BitVec.ofNat 64 (littleEndian s d1 8)
      len := littleEndian s (d1 + 8) 4
      toDisk := decide (littleEndian s (d1 + 12) 2 / 2 % 2 = 0)
      sector := littleEndian s ((hdr + 8) % 2 ^ 64) 8 }, s)

/-- The copy of a disk transfer (60_exceptions.md R542), between the disk and a buffer in DRAM: exactly the bytes of the
range are copied, and nothing else changes. -/
def Obligations.DiskCopies : Prop :=
  ∀ (s : State) (buf : Word) (off len : Nat), s.cfg.admissible = true → InDram s buf.toNat len →
    (∃ t, copyBytes false buf off len s = .ok t ∧
      (∀ a, t.byte a = if buf.toNat ≤ a ∧ a < buf.toNat + len then Memory.read s.disk (off + (a - buf.toNat)) else s.byte a) ∧
      t.disk = s.disk ∧ SameRegs s t ∧ t.pc = s.pc ∧ t.resv = s.resv ∧ SameSystem s t ∧ SameDevices s t) ∧
    (∃ t, copyBytes true buf off len s = .ok t ∧
      (∀ k, Memory.read t.disk k =
        if off ≤ k ∧ k < off + len then s.byte (buf.toNat + (k - off)) else Memory.read s.disk k) ∧
      t = s.setDisk t.disk)

/-- The outcome of a disk access (60_exceptions.md R542, R544, R547): a refused read of the rings, the descriptors or the
header is a model fault with nothing changed; a range past the end of the disk is a model fault
before anything is copied; after the copy the counter goes up by one and `used.idx` gets it modulo 8; a refused bus access
is a model fault that keeps the effects before it. That the range is exact is notes/assumptions/10.md. -/
def Obligations.DiskAccessOutcome : Prop :=
  (∀ (s : State) (a : Word) (n : Width) (e : Exc), RequestRead s a n → busLoad s a n .load = .error e →
    diskAccess s = .error (.virtioBus s)) ∧
  (∀ s : State, (∀ a n, RequestRead s a n → ∃ x, Reads s a n x) → ∃ r, readRequest s = .ok (r, s)) ∧
  ∀ (s : State) (r : DiskRequest) (used : Word), readRequest s = .ok (r, s) →
    used.toNat = (s.virtio.queuePfn.toNat * s.virtio.guestPageSize.toNat + s.virtio.guestPageSize.toNat) % 2 ^ 64 →
    (s.cfg.diskSize < r.sector * 512 + r.len → diskAccess s = .error (.virtioRange s)) ∧
    (r.sector * 512 + r.len ≤ s.cfg.diskSize →
      (∀ f, copyBytes r.toDisk r.buf (r.sector * 512) r.len s = .error f →
        diskAccess s = .error f ∧ ∃ stopped, f = .virtioBus stopped) ∧
      ∀ t1, copyBytes r.toDisk r.buf (r.sector * 512) r.len s = .ok t1 →
        (∀ t, busStore (t1.setVirtio { t1.virtio with vioId := t1.virtio.vioId + 1 }) (used + 2) .half
            (BitVec.ofNat 64 ((t1.virtio.vioId.toNat + 1) % 8)) .store = .ok t → diskAccess s = .ok t) ∧
        (∀ e, busStore (t1.setVirtio { t1.virtio with vioId := t1.virtio.vioId + 1 }) (used + 2) .half
            (BitVec.ofNat 64 ((t1.virtio.vioId.toNat + 1) % 8)) .store = .error e →
          diskAccess s = .error (.virtioBus (t1.setVirtio { t1.virtio with vioId := t1.virtio.vioId + 1 }))))

/-! ## Invariants -/

/-- Every step keeps the canonical form of the byte stores and of the CSR bank, so equal contents stay equal data
(10_state.md R45, R62; the form is the model's, notes/assumptions/4.md). -/
def Obligations.StepKeepsCanonicalStores : Prop :=
  ∀ s t : State, CanonicalStores s → step s = .next t → CanonicalStores t

/-- Every step keeps the paging state equal to what `satp` gives (10_state.md R56), and the parameters as they are
(00_scope.md R20). -/
def Obligations.StepKeepsPagingFollowsSatp : Prop :=
  ∀ s t : State, PagingFollowsSatp s → step s = .next t → PagingFollowsSatp t ∧ t.cfg = s.cfg

/-- Every step keeps DRAM's bytes inside DRAM and the disk's inside the disk (10_state.md R62, R66). -/
def Obligations.StepKeepsBytesInBounds : Prop :=
  ∀ s t : State, BytesInBounds s → step s = .next t → BytesInBounds t

/-- Every step leaves the bank without an entry for `sie` and without one past 4095 (47_csr.md R397; 10_state.md R45). -/
def Obligations.StepKeepsCsrBankShape : Prop :=
  ∀ s t : State, CsrBankShape s → step s = .next t → CsrBankShape t
end

