-- ==== Sys2Proof/Laws/State.lean ====
section
/-! SUPPORT. One lemma for each field and each update of State, and for each reader (`reg`, `isWritten`, `csrRaw`, `byte`)
and each update that leaves it alone. -/

namespace Sys2Proof.Machine

@[simp] theorem State.setPc_cfg (s : State) (v : Word) : (s.setPc v).cfg = s.cfg := rfl
@[simp] theorem State.setPc_x (s : State) (v : Word) : (s.setPc v).x = s.x := rfl
@[simp] theorem State.setPc_written (s : State) (v : Word) : (s.setPc v).written = s.written := rfl
@[simp] theorem State.setPc_pc (s : State) (v : Word) : (s.setPc v).pc = v := rfl
@[simp] theorem State.setPc_mode (s : State) (v : Word) : (s.setPc v).mode = s.mode := rfl
@[simp] theorem State.setPc_csr (s : State) (v : Word) : (s.setPc v).csr = s.csr := rfl
@[simp] theorem State.setPc_paging (s : State) (v : Word) : (s.setPc v).paging = s.paging := rfl
@[simp] theorem State.setPc_ptRoot (s : State) (v : Word) : (s.setPc v).ptRoot = s.ptRoot := rfl
@[simp] theorem State.setPc_resv (s : State) (v : Word) : (s.setPc v).resv = s.resv := rfl
@[simp] theorem State.setPc_halted (s : State) (v : Word) : (s.setPc v).halted = s.halted := rfl
@[simp] theorem State.setPc_mem (s : State) (v : Word) : (s.setPc v).mem = s.mem := rfl
@[simp] theorem State.setPc_clint (s : State) (v : Word) : (s.setPc v).clint = s.clint := rfl
@[simp] theorem State.setPc_plic (s : State) (v : Word) : (s.setPc v).plic = s.plic := rfl
@[simp] theorem State.setPc_uart (s : State) (v : Word) : (s.setPc v).uart = s.uart := rfl
@[simp] theorem State.setPc_virtio (s : State) (v : Word) : (s.setPc v).virtio = s.virtio := rfl
@[simp] theorem State.setPc_disk (s : State) (v : Word) : (s.setPc v).disk = s.disk := rfl
@[simp] theorem State.setPc_out (s : State) (v : Word) : (s.setPc v).out = s.out := rfl
@[simp] theorem State.setPc_input (s : State) (v : Word) : (s.setPc v).input = s.input := rfl
@[simp] theorem State.setPc_reg (s : State) (v : Word) (q : RegIdx) : (s.setPc v).reg q = s.reg q := rfl
@[simp] theorem State.setPc_isWritten (s : State) (v : Word) (q : RegIdx) : (s.setPc v).isWritten q = s.isWritten q := rfl
@[simp] theorem State.setPc_csrRaw (s : State) (v : Word) (n : CsrNum) : (s.setPc v).csrRaw n = s.csrRaw n := rfl
@[simp] theorem State.setPc_byte (s : State) (v : Word) (k : Nat) : (s.setPc v).byte k = s.byte k := rfl

@[simp] theorem State.setMode_cfg (s : State) (m : Mode) : (s.setMode m).cfg = s.cfg := rfl
@[simp] theorem State.setMode_x (s : State) (m : Mode) : (s.setMode m).x = s.x := rfl
@[simp] theorem State.setMode_written (s : State) (m : Mode) : (s.setMode m).written = s.written := rfl
@[simp] theorem State.setMode_pc (s : State) (m : Mode) : (s.setMode m).pc = s.pc := rfl
@[simp] theorem State.setMode_mode (s : State) (m : Mode) : (s.setMode m).mode = m := rfl
@[simp] theorem State.setMode_csr (s : State) (m : Mode) : (s.setMode m).csr = s.csr := rfl
@[simp] theorem State.setMode_paging (s : State) (m : Mode) : (s.setMode m).paging = s.paging := rfl
@[simp] theorem State.setMode_ptRoot (s : State) (m : Mode) : (s.setMode m).ptRoot = s.ptRoot := rfl
@[simp] theorem State.setMode_resv (s : State) (m : Mode) : (s.setMode m).resv = s.resv := rfl
@[simp] theorem State.setMode_halted (s : State) (m : Mode) : (s.setMode m).halted = s.halted := rfl
@[simp] theorem State.setMode_mem (s : State) (m : Mode) : (s.setMode m).mem = s.mem := rfl
@[simp] theorem State.setMode_clint (s : State) (m : Mode) : (s.setMode m).clint = s.clint := rfl
@[simp] theorem State.setMode_plic (s : State) (m : Mode) : (s.setMode m).plic = s.plic := rfl
@[simp] theorem State.setMode_uart (s : State) (m : Mode) : (s.setMode m).uart = s.uart := rfl
@[simp] theorem State.setMode_virtio (s : State) (m : Mode) : (s.setMode m).virtio = s.virtio := rfl
@[simp] theorem State.setMode_disk (s : State) (m : Mode) : (s.setMode m).disk = s.disk := rfl
@[simp] theorem State.setMode_out (s : State) (m : Mode) : (s.setMode m).out = s.out := rfl
@[simp] theorem State.setMode_input (s : State) (m : Mode) : (s.setMode m).input = s.input := rfl
@[simp] theorem State.setMode_reg (s : State) (m : Mode) (q : RegIdx) : (s.setMode m).reg q = s.reg q := rfl
@[simp] theorem State.setMode_isWritten (s : State) (m : Mode) (q : RegIdx) : (s.setMode m).isWritten q = s.isWritten q := rfl
@[simp] theorem State.setMode_csrRaw (s : State) (m : Mode) (n : CsrNum) : (s.setMode m).csrRaw n = s.csrRaw n := rfl
@[simp] theorem State.setMode_byte (s : State) (m : Mode) (k : Nat) : (s.setMode m).byte k = s.byte k := rfl

@[simp] theorem State.setPaging_cfg (s : State) (b : Bool) (w : Word) : (s.setPaging b w).cfg = s.cfg := rfl
@[simp] theorem State.setPaging_x (s : State) (b : Bool) (w : Word) : (s.setPaging b w).x = s.x := rfl
@[simp] theorem State.setPaging_written (s : State) (b : Bool) (w : Word) : (s.setPaging b w).written = s.written := rfl
@[simp] theorem State.setPaging_pc (s : State) (b : Bool) (w : Word) : (s.setPaging b w).pc = s.pc := rfl
@[simp] theorem State.setPaging_mode (s : State) (b : Bool) (w : Word) : (s.setPaging b w).mode = s.mode := rfl
@[simp] theorem State.setPaging_csr (s : State) (b : Bool) (w : Word) : (s.setPaging b w).csr = s.csr := rfl
@[simp] theorem State.setPaging_paging (s : State) (b : Bool) (w : Word) : (s.setPaging b w).paging = b := rfl
@[simp] theorem State.setPaging_ptRoot (s : State) (b : Bool) (w : Word) : (s.setPaging b w).ptRoot = w := rfl
@[simp] theorem State.setPaging_resv (s : State) (b : Bool) (w : Word) : (s.setPaging b w).resv = s.resv := rfl
@[simp] theorem State.setPaging_halted (s : State) (b : Bool) (w : Word) : (s.setPaging b w).halted = s.halted := rfl
@[simp] theorem State.setPaging_mem (s : State) (b : Bool) (w : Word) : (s.setPaging b w).mem = s.mem := rfl
@[simp] theorem State.setPaging_clint (s : State) (b : Bool) (w : Word) : (s.setPaging b w).clint = s.clint := rfl
@[simp] theorem State.setPaging_plic (s : State) (b : Bool) (w : Word) : (s.setPaging b w).plic = s.plic := rfl
@[simp] theorem State.setPaging_uart (s : State) (b : Bool) (w : Word) : (s.setPaging b w).uart = s.uart := rfl
@[simp] theorem State.setPaging_virtio (s : State) (b : Bool) (w : Word) : (s.setPaging b w).virtio = s.virtio := rfl
@[simp] theorem State.setPaging_disk (s : State) (b : Bool) (w : Word) : (s.setPaging b w).disk = s.disk := rfl
@[simp] theorem State.setPaging_out (s : State) (b : Bool) (w : Word) : (s.setPaging b w).out = s.out := rfl
@[simp] theorem State.setPaging_input (s : State) (b : Bool) (w : Word) : (s.setPaging b w).input = s.input := rfl
@[simp] theorem State.setPaging_reg (s : State) (b : Bool) (w : Word) (q : RegIdx) : (s.setPaging b w).reg q = s.reg q := rfl
@[simp] theorem State.setPaging_isWritten (s : State) (b : Bool) (w : Word) (q : RegIdx) : (s.setPaging b w).isWritten q = s.isWritten q := rfl
@[simp] theorem State.setPaging_csrRaw (s : State) (b : Bool) (w : Word) (n : CsrNum) : (s.setPaging b w).csrRaw n = s.csrRaw n := rfl
@[simp] theorem State.setPaging_byte (s : State) (b : Bool) (w : Word) (k : Nat) : (s.setPaging b w).byte k = s.byte k := rfl

@[simp] theorem State.setResv_cfg (s : State) (r : Option Word) : (s.setResv r).cfg = s.cfg := rfl
@[simp] theorem State.setResv_x (s : State) (r : Option Word) : (s.setResv r).x = s.x := rfl
@[simp] theorem State.setResv_written (s : State) (r : Option Word) : (s.setResv r).written = s.written := rfl
@[simp] theorem State.setResv_pc (s : State) (r : Option Word) : (s.setResv r).pc = s.pc := rfl
@[simp] theorem State.setResv_mode (s : State) (r : Option Word) : (s.setResv r).mode = s.mode := rfl
@[simp] theorem State.setResv_csr (s : State) (r : Option Word) : (s.setResv r).csr = s.csr := rfl
@[simp] theorem State.setResv_paging (s : State) (r : Option Word) : (s.setResv r).paging = s.paging := rfl
@[simp] theorem State.setResv_ptRoot (s : State) (r : Option Word) : (s.setResv r).ptRoot = s.ptRoot := rfl
@[simp] theorem State.setResv_resv (s : State) (r : Option Word) : (s.setResv r).resv = r := rfl
@[simp] theorem State.setResv_halted (s : State) (r : Option Word) : (s.setResv r).halted = s.halted := rfl
@[simp] theorem State.setResv_mem (s : State) (r : Option Word) : (s.setResv r).mem = s.mem := rfl
@[simp] theorem State.setResv_clint (s : State) (r : Option Word) : (s.setResv r).clint = s.clint := rfl
@[simp] theorem State.setResv_plic (s : State) (r : Option Word) : (s.setResv r).plic = s.plic := rfl
@[simp] theorem State.setResv_uart (s : State) (r : Option Word) : (s.setResv r).uart = s.uart := rfl
@[simp] theorem State.setResv_virtio (s : State) (r : Option Word) : (s.setResv r).virtio = s.virtio := rfl
@[simp] theorem State.setResv_disk (s : State) (r : Option Word) : (s.setResv r).disk = s.disk := rfl
@[simp] theorem State.setResv_out (s : State) (r : Option Word) : (s.setResv r).out = s.out := rfl
@[simp] theorem State.setResv_input (s : State) (r : Option Word) : (s.setResv r).input = s.input := rfl
@[simp] theorem State.setResv_reg (s : State) (r : Option Word) (q : RegIdx) : (s.setResv r).reg q = s.reg q := rfl
@[simp] theorem State.setResv_isWritten (s : State) (r : Option Word) (q : RegIdx) : (s.setResv r).isWritten q = s.isWritten q := rfl
@[simp] theorem State.setResv_csrRaw (s : State) (r : Option Word) (n : CsrNum) : (s.setResv r).csrRaw n = s.csrRaw n := rfl
@[simp] theorem State.setResv_byte (s : State) (r : Option Word) (k : Nat) : (s.setResv r).byte k = s.byte k := rfl

@[simp] theorem State.setHalted_cfg (s : State) (b : Bool) : (s.setHalted b).cfg = s.cfg := rfl
@[simp] theorem State.setHalted_x (s : State) (b : Bool) : (s.setHalted b).x = s.x := rfl
@[simp] theorem State.setHalted_written (s : State) (b : Bool) : (s.setHalted b).written = s.written := rfl
@[simp] theorem State.setHalted_pc (s : State) (b : Bool) : (s.setHalted b).pc = s.pc := rfl
@[simp] theorem State.setHalted_mode (s : State) (b : Bool) : (s.setHalted b).mode = s.mode := rfl
@[simp] theorem State.setHalted_csr (s : State) (b : Bool) : (s.setHalted b).csr = s.csr := rfl
@[simp] theorem State.setHalted_paging (s : State) (b : Bool) : (s.setHalted b).paging = s.paging := rfl
@[simp] theorem State.setHalted_ptRoot (s : State) (b : Bool) : (s.setHalted b).ptRoot = s.ptRoot := rfl
@[simp] theorem State.setHalted_resv (s : State) (b : Bool) : (s.setHalted b).resv = s.resv := rfl
@[simp] theorem State.setHalted_halted (s : State) (b : Bool) : (s.setHalted b).halted = b := rfl
@[simp] theorem State.setHalted_mem (s : State) (b : Bool) : (s.setHalted b).mem = s.mem := rfl
@[simp] theorem State.setHalted_clint (s : State) (b : Bool) : (s.setHalted b).clint = s.clint := rfl
@[simp] theorem State.setHalted_plic (s : State) (b : Bool) : (s.setHalted b).plic = s.plic := rfl
@[simp] theorem State.setHalted_uart (s : State) (b : Bool) : (s.setHalted b).uart = s.uart := rfl
@[simp] theorem State.setHalted_virtio (s : State) (b : Bool) : (s.setHalted b).virtio = s.virtio := rfl
@[simp] theorem State.setHalted_disk (s : State) (b : Bool) : (s.setHalted b).disk = s.disk := rfl
@[simp] theorem State.setHalted_out (s : State) (b : Bool) : (s.setHalted b).out = s.out := rfl
@[simp] theorem State.setHalted_input (s : State) (b : Bool) : (s.setHalted b).input = s.input := rfl
@[simp] theorem State.setHalted_reg (s : State) (b : Bool) (q : RegIdx) : (s.setHalted b).reg q = s.reg q := rfl
@[simp] theorem State.setHalted_isWritten (s : State) (b : Bool) (q : RegIdx) : (s.setHalted b).isWritten q = s.isWritten q := rfl
@[simp] theorem State.setHalted_csrRaw (s : State) (b : Bool) (n : CsrNum) : (s.setHalted b).csrRaw n = s.csrRaw n := rfl
@[simp] theorem State.setHalted_byte (s : State) (b : Bool) (k : Nat) : (s.setHalted b).byte k = s.byte k := rfl

@[simp] theorem State.setMem_cfg (s : State) (m : List Host.Cell) : (s.setMem m).cfg = s.cfg := rfl
@[simp] theorem State.setMem_x (s : State) (m : List Host.Cell) : (s.setMem m).x = s.x := rfl
@[simp] theorem State.setMem_written (s : State) (m : List Host.Cell) : (s.setMem m).written = s.written := rfl
@[simp] theorem State.setMem_pc (s : State) (m : List Host.Cell) : (s.setMem m).pc = s.pc := rfl
@[simp] theorem State.setMem_mode (s : State) (m : List Host.Cell) : (s.setMem m).mode = s.mode := rfl
@[simp] theorem State.setMem_csr (s : State) (m : List Host.Cell) : (s.setMem m).csr = s.csr := rfl
@[simp] theorem State.setMem_paging (s : State) (m : List Host.Cell) : (s.setMem m).paging = s.paging := rfl
@[simp] theorem State.setMem_ptRoot (s : State) (m : List Host.Cell) : (s.setMem m).ptRoot = s.ptRoot := rfl
@[simp] theorem State.setMem_resv (s : State) (m : List Host.Cell) : (s.setMem m).resv = s.resv := rfl
@[simp] theorem State.setMem_halted (s : State) (m : List Host.Cell) : (s.setMem m).halted = s.halted := rfl
@[simp] theorem State.setMem_mem (s : State) (m : List Host.Cell) : (s.setMem m).mem = m := rfl
@[simp] theorem State.setMem_clint (s : State) (m : List Host.Cell) : (s.setMem m).clint = s.clint := rfl
@[simp] theorem State.setMem_plic (s : State) (m : List Host.Cell) : (s.setMem m).plic = s.plic := rfl
@[simp] theorem State.setMem_uart (s : State) (m : List Host.Cell) : (s.setMem m).uart = s.uart := rfl
@[simp] theorem State.setMem_virtio (s : State) (m : List Host.Cell) : (s.setMem m).virtio = s.virtio := rfl
@[simp] theorem State.setMem_disk (s : State) (m : List Host.Cell) : (s.setMem m).disk = s.disk := rfl
@[simp] theorem State.setMem_out (s : State) (m : List Host.Cell) : (s.setMem m).out = s.out := rfl
@[simp] theorem State.setMem_input (s : State) (m : List Host.Cell) : (s.setMem m).input = s.input := rfl
@[simp] theorem State.setMem_reg (s : State) (m : List Host.Cell) (q : RegIdx) : (s.setMem m).reg q = s.reg q := rfl
@[simp] theorem State.setMem_isWritten (s : State) (m : List Host.Cell) (q : RegIdx) : (s.setMem m).isWritten q = s.isWritten q := rfl
@[simp] theorem State.setMem_csrRaw (s : State) (m : List Host.Cell) (n : CsrNum) : (s.setMem m).csrRaw n = s.csrRaw n := rfl

@[simp] theorem State.setClint_cfg (s : State) (c : Clint) : (s.setClint c).cfg = s.cfg := rfl
@[simp] theorem State.setClint_x (s : State) (c : Clint) : (s.setClint c).x = s.x := rfl
@[simp] theorem State.setClint_written (s : State) (c : Clint) : (s.setClint c).written = s.written := rfl
@[simp] theorem State.setClint_pc (s : State) (c : Clint) : (s.setClint c).pc = s.pc := rfl
@[simp] theorem State.setClint_mode (s : State) (c : Clint) : (s.setClint c).mode = s.mode := rfl
@[simp] theorem State.setClint_csr (s : State) (c : Clint) : (s.setClint c).csr = s.csr := rfl
@[simp] theorem State.setClint_paging (s : State) (c : Clint) : (s.setClint c).paging = s.paging := rfl
@[simp] theorem State.setClint_ptRoot (s : State) (c : Clint) : (s.setClint c).ptRoot = s.ptRoot := rfl
@[simp] theorem State.setClint_resv (s : State) (c : Clint) : (s.setClint c).resv = s.resv := rfl
@[simp] theorem State.setClint_halted (s : State) (c : Clint) : (s.setClint c).halted = s.halted := rfl
@[simp] theorem State.setClint_mem (s : State) (c : Clint) : (s.setClint c).mem = s.mem := rfl
@[simp] theorem State.setClint_clint (s : State) (c : Clint) : (s.setClint c).clint = c := rfl
@[simp] theorem State.setClint_plic (s : State) (c : Clint) : (s.setClint c).plic = s.plic := rfl
@[simp] theorem State.setClint_uart (s : State) (c : Clint) : (s.setClint c).uart = s.uart := rfl
@[simp] theorem State.setClint_virtio (s : State) (c : Clint) : (s.setClint c).virtio = s.virtio := rfl
@[simp] theorem State.setClint_disk (s : State) (c : Clint) : (s.setClint c).disk = s.disk := rfl
@[simp] theorem State.setClint_out (s : State) (c : Clint) : (s.setClint c).out = s.out := rfl
@[simp] theorem State.setClint_input (s : State) (c : Clint) : (s.setClint c).input = s.input := rfl
@[simp] theorem State.setClint_reg (s : State) (c : Clint) (q : RegIdx) : (s.setClint c).reg q = s.reg q := rfl
@[simp] theorem State.setClint_isWritten (s : State) (c : Clint) (q : RegIdx) : (s.setClint c).isWritten q = s.isWritten q := rfl
@[simp] theorem State.setClint_csrRaw (s : State) (c : Clint) (n : CsrNum) : (s.setClint c).csrRaw n = s.csrRaw n := rfl
@[simp] theorem State.setClint_byte (s : State) (c : Clint) (k : Nat) : (s.setClint c).byte k = s.byte k := rfl

@[simp] theorem State.setPlic_cfg (s : State) (p : Plic) : (s.setPlic p).cfg = s.cfg := rfl
@[simp] theorem State.setPlic_x (s : State) (p : Plic) : (s.setPlic p).x = s.x := rfl
@[simp] theorem State.setPlic_written (s : State) (p : Plic) : (s.setPlic p).written = s.written := rfl
@[simp] theorem State.setPlic_pc (s : State) (p : Plic) : (s.setPlic p).pc = s.pc := rfl
@[simp] theorem State.setPlic_mode (s : State) (p : Plic) : (s.setPlic p).mode = s.mode := rfl
@[simp] theorem State.setPlic_csr (s : State) (p : Plic) : (s.setPlic p).csr = s.csr := rfl
@[simp] theorem State.setPlic_paging (s : State) (p : Plic) : (s.setPlic p).paging = s.paging := rfl
@[simp] theorem State.setPlic_ptRoot (s : State) (p : Plic) : (s.setPlic p).ptRoot = s.ptRoot := rfl
@[simp] theorem State.setPlic_resv (s : State) (p : Plic) : (s.setPlic p).resv = s.resv := rfl
@[simp] theorem State.setPlic_halted (s : State) (p : Plic) : (s.setPlic p).halted = s.halted := rfl
@[simp] theorem State.setPlic_mem (s : State) (p : Plic) : (s.setPlic p).mem = s.mem := rfl
@[simp] theorem State.setPlic_clint (s : State) (p : Plic) : (s.setPlic p).clint = s.clint := rfl
@[simp] theorem State.setPlic_plic (s : State) (p : Plic) : (s.setPlic p).plic = p := rfl
@[simp] theorem State.setPlic_uart (s : State) (p : Plic) : (s.setPlic p).uart = s.uart := rfl
@[simp] theorem State.setPlic_virtio (s : State) (p : Plic) : (s.setPlic p).virtio = s.virtio := rfl
@[simp] theorem State.setPlic_disk (s : State) (p : Plic) : (s.setPlic p).disk = s.disk := rfl
@[simp] theorem State.setPlic_out (s : State) (p : Plic) : (s.setPlic p).out = s.out := rfl
@[simp] theorem State.setPlic_input (s : State) (p : Plic) : (s.setPlic p).input = s.input := rfl
@[simp] theorem State.setPlic_reg (s : State) (p : Plic) (q : RegIdx) : (s.setPlic p).reg q = s.reg q := rfl
@[simp] theorem State.setPlic_isWritten (s : State) (p : Plic) (q : RegIdx) : (s.setPlic p).isWritten q = s.isWritten q := rfl
@[simp] theorem State.setPlic_csrRaw (s : State) (p : Plic) (n : CsrNum) : (s.setPlic p).csrRaw n = s.csrRaw n := rfl
@[simp] theorem State.setPlic_byte (s : State) (p : Plic) (k : Nat) : (s.setPlic p).byte k = s.byte k := rfl

@[simp] theorem State.setUart_cfg (s : State) (u : Uart) : (s.setUart u).cfg = s.cfg := rfl
@[simp] theorem State.setUart_x (s : State) (u : Uart) : (s.setUart u).x = s.x := rfl
@[simp] theorem State.setUart_written (s : State) (u : Uart) : (s.setUart u).written = s.written := rfl
@[simp] theorem State.setUart_pc (s : State) (u : Uart) : (s.setUart u).pc = s.pc := rfl
@[simp] theorem State.setUart_mode (s : State) (u : Uart) : (s.setUart u).mode = s.mode := rfl
@[simp] theorem State.setUart_csr (s : State) (u : Uart) : (s.setUart u).csr = s.csr := rfl
@[simp] theorem State.setUart_paging (s : State) (u : Uart) : (s.setUart u).paging = s.paging := rfl
@[simp] theorem State.setUart_ptRoot (s : State) (u : Uart) : (s.setUart u).ptRoot = s.ptRoot := rfl
@[simp] theorem State.setUart_resv (s : State) (u : Uart) : (s.setUart u).resv = s.resv := rfl
@[simp] theorem State.setUart_halted (s : State) (u : Uart) : (s.setUart u).halted = s.halted := rfl
@[simp] theorem State.setUart_mem (s : State) (u : Uart) : (s.setUart u).mem = s.mem := rfl
@[simp] theorem State.setUart_clint (s : State) (u : Uart) : (s.setUart u).clint = s.clint := rfl
@[simp] theorem State.setUart_plic (s : State) (u : Uart) : (s.setUart u).plic = s.plic := rfl
@[simp] theorem State.setUart_uart (s : State) (u : Uart) : (s.setUart u).uart = u := rfl
@[simp] theorem State.setUart_virtio (s : State) (u : Uart) : (s.setUart u).virtio = s.virtio := rfl
@[simp] theorem State.setUart_disk (s : State) (u : Uart) : (s.setUart u).disk = s.disk := rfl
@[simp] theorem State.setUart_out (s : State) (u : Uart) : (s.setUart u).out = s.out := rfl
@[simp] theorem State.setUart_input (s : State) (u : Uart) : (s.setUart u).input = s.input := rfl
@[simp] theorem State.setUart_reg (s : State) (u : Uart) (q : RegIdx) : (s.setUart u).reg q = s.reg q := rfl
@[simp] theorem State.setUart_isWritten (s : State) (u : Uart) (q : RegIdx) : (s.setUart u).isWritten q = s.isWritten q := rfl
@[simp] theorem State.setUart_csrRaw (s : State) (u : Uart) (n : CsrNum) : (s.setUart u).csrRaw n = s.csrRaw n := rfl
@[simp] theorem State.setUart_byte (s : State) (u : Uart) (k : Nat) : (s.setUart u).byte k = s.byte k := rfl

@[simp] theorem State.setVirtio_cfg (s : State) (v : Virtio) : (s.setVirtio v).cfg = s.cfg := rfl
@[simp] theorem State.setVirtio_x (s : State) (v : Virtio) : (s.setVirtio v).x = s.x := rfl
@[simp] theorem State.setVirtio_written (s : State) (v : Virtio) : (s.setVirtio v).written = s.written := rfl
@[simp] theorem State.setVirtio_pc (s : State) (v : Virtio) : (s.setVirtio v).pc = s.pc := rfl
@[simp] theorem State.setVirtio_mode (s : State) (v : Virtio) : (s.setVirtio v).mode = s.mode := rfl
@[simp] theorem State.setVirtio_csr (s : State) (v : Virtio) : (s.setVirtio v).csr = s.csr := rfl
@[simp] theorem State.setVirtio_paging (s : State) (v : Virtio) : (s.setVirtio v).paging = s.paging := rfl
@[simp] theorem State.setVirtio_ptRoot (s : State) (v : Virtio) : (s.setVirtio v).ptRoot = s.ptRoot := rfl
@[simp] theorem State.setVirtio_resv (s : State) (v : Virtio) : (s.setVirtio v).resv = s.resv := rfl
@[simp] theorem State.setVirtio_halted (s : State) (v : Virtio) : (s.setVirtio v).halted = s.halted := rfl
@[simp] theorem State.setVirtio_mem (s : State) (v : Virtio) : (s.setVirtio v).mem = s.mem := rfl
@[simp] theorem State.setVirtio_clint (s : State) (v : Virtio) : (s.setVirtio v).clint = s.clint := rfl
@[simp] theorem State.setVirtio_plic (s : State) (v : Virtio) : (s.setVirtio v).plic = s.plic := rfl
@[simp] theorem State.setVirtio_uart (s : State) (v : Virtio) : (s.setVirtio v).uart = s.uart := rfl
@[simp] theorem State.setVirtio_virtio (s : State) (v : Virtio) : (s.setVirtio v).virtio = v := rfl
@[simp] theorem State.setVirtio_disk (s : State) (v : Virtio) : (s.setVirtio v).disk = s.disk := rfl
@[simp] theorem State.setVirtio_out (s : State) (v : Virtio) : (s.setVirtio v).out = s.out := rfl
@[simp] theorem State.setVirtio_input (s : State) (v : Virtio) : (s.setVirtio v).input = s.input := rfl
@[simp] theorem State.setVirtio_reg (s : State) (v : Virtio) (q : RegIdx) : (s.setVirtio v).reg q = s.reg q := rfl
@[simp] theorem State.setVirtio_isWritten (s : State) (v : Virtio) (q : RegIdx) : (s.setVirtio v).isWritten q = s.isWritten q := rfl
@[simp] theorem State.setVirtio_csrRaw (s : State) (v : Virtio) (n : CsrNum) : (s.setVirtio v).csrRaw n = s.csrRaw n := rfl
@[simp] theorem State.setVirtio_byte (s : State) (v : Virtio) (k : Nat) : (s.setVirtio v).byte k = s.byte k := rfl

@[simp] theorem State.setDisk_cfg (s : State) (d : List Host.Cell) : (s.setDisk d).cfg = s.cfg := rfl
@[simp] theorem State.setDisk_x (s : State) (d : List Host.Cell) : (s.setDisk d).x = s.x := rfl
@[simp] theorem State.setDisk_written (s : State) (d : List Host.Cell) : (s.setDisk d).written = s.written := rfl
@[simp] theorem State.setDisk_pc (s : State) (d : List Host.Cell) : (s.setDisk d).pc = s.pc := rfl
@[simp] theorem State.setDisk_mode (s : State) (d : List Host.Cell) : (s.setDisk d).mode = s.mode := rfl
@[simp] theorem State.setDisk_csr (s : State) (d : List Host.Cell) : (s.setDisk d).csr = s.csr := rfl
@[simp] theorem State.setDisk_paging (s : State) (d : List Host.Cell) : (s.setDisk d).paging = s.paging := rfl
@[simp] theorem State.setDisk_ptRoot (s : State) (d : List Host.Cell) : (s.setDisk d).ptRoot = s.ptRoot := rfl
@[simp] theorem State.setDisk_resv (s : State) (d : List Host.Cell) : (s.setDisk d).resv = s.resv := rfl
@[simp] theorem State.setDisk_halted (s : State) (d : List Host.Cell) : (s.setDisk d).halted = s.halted := rfl
@[simp] theorem State.setDisk_mem (s : State) (d : List Host.Cell) : (s.setDisk d).mem = s.mem := rfl
@[simp] theorem State.setDisk_clint (s : State) (d : List Host.Cell) : (s.setDisk d).clint = s.clint := rfl
@[simp] theorem State.setDisk_plic (s : State) (d : List Host.Cell) : (s.setDisk d).plic = s.plic := rfl
@[simp] theorem State.setDisk_uart (s : State) (d : List Host.Cell) : (s.setDisk d).uart = s.uart := rfl
@[simp] theorem State.setDisk_virtio (s : State) (d : List Host.Cell) : (s.setDisk d).virtio = s.virtio := rfl
@[simp] theorem State.setDisk_disk (s : State) (d : List Host.Cell) : (s.setDisk d).disk = d := rfl
@[simp] theorem State.setDisk_out (s : State) (d : List Host.Cell) : (s.setDisk d).out = s.out := rfl
@[simp] theorem State.setDisk_input (s : State) (d : List Host.Cell) : (s.setDisk d).input = s.input := rfl
@[simp] theorem State.setDisk_reg (s : State) (d : List Host.Cell) (q : RegIdx) : (s.setDisk d).reg q = s.reg q := rfl
@[simp] theorem State.setDisk_isWritten (s : State) (d : List Host.Cell) (q : RegIdx) : (s.setDisk d).isWritten q = s.isWritten q := rfl
@[simp] theorem State.setDisk_csrRaw (s : State) (d : List Host.Cell) (n : CsrNum) : (s.setDisk d).csrRaw n = s.csrRaw n := rfl
@[simp] theorem State.setDisk_byte (s : State) (d : List Host.Cell) (k : Nat) : (s.setDisk d).byte k = s.byte k := rfl

@[simp] theorem State.setOut_cfg (s : State) (o : List Byte) : (s.setOut o).cfg = s.cfg := rfl
@[simp] theorem State.setOut_x (s : State) (o : List Byte) : (s.setOut o).x = s.x := rfl
@[simp] theorem State.setOut_written (s : State) (o : List Byte) : (s.setOut o).written = s.written := rfl
@[simp] theorem State.setOut_pc (s : State) (o : List Byte) : (s.setOut o).pc = s.pc := rfl
@[simp] theorem State.setOut_mode (s : State) (o : List Byte) : (s.setOut o).mode = s.mode := rfl
@[simp] theorem State.setOut_csr (s : State) (o : List Byte) : (s.setOut o).csr = s.csr := rfl
@[simp] theorem State.setOut_paging (s : State) (o : List Byte) : (s.setOut o).paging = s.paging := rfl
@[simp] theorem State.setOut_ptRoot (s : State) (o : List Byte) : (s.setOut o).ptRoot = s.ptRoot := rfl
@[simp] theorem State.setOut_resv (s : State) (o : List Byte) : (s.setOut o).resv = s.resv := rfl
@[simp] theorem State.setOut_halted (s : State) (o : List Byte) : (s.setOut o).halted = s.halted := rfl
@[simp] theorem State.setOut_mem (s : State) (o : List Byte) : (s.setOut o).mem = s.mem := rfl
@[simp] theorem State.setOut_clint (s : State) (o : List Byte) : (s.setOut o).clint = s.clint := rfl
@[simp] theorem State.setOut_plic (s : State) (o : List Byte) : (s.setOut o).plic = s.plic := rfl
@[simp] theorem State.setOut_uart (s : State) (o : List Byte) : (s.setOut o).uart = s.uart := rfl
@[simp] theorem State.setOut_virtio (s : State) (o : List Byte) : (s.setOut o).virtio = s.virtio := rfl
@[simp] theorem State.setOut_disk (s : State) (o : List Byte) : (s.setOut o).disk = s.disk := rfl
@[simp] theorem State.setOut_out (s : State) (o : List Byte) : (s.setOut o).out = o := rfl
@[simp] theorem State.setOut_input (s : State) (o : List Byte) : (s.setOut o).input = s.input := rfl
@[simp] theorem State.setOut_reg (s : State) (o : List Byte) (q : RegIdx) : (s.setOut o).reg q = s.reg q := rfl
@[simp] theorem State.setOut_isWritten (s : State) (o : List Byte) (q : RegIdx) : (s.setOut o).isWritten q = s.isWritten q := rfl
@[simp] theorem State.setOut_csrRaw (s : State) (o : List Byte) (n : CsrNum) : (s.setOut o).csrRaw n = s.csrRaw n := rfl
@[simp] theorem State.setOut_byte (s : State) (o : List Byte) (k : Nat) : (s.setOut o).byte k = s.byte k := rfl

@[simp] theorem State.setInput_cfg (s : State) (i : List (Option Byte)) : (s.setInput i).cfg = s.cfg := rfl
@[simp] theorem State.setInput_x (s : State) (i : List (Option Byte)) : (s.setInput i).x = s.x := rfl
@[simp] theorem State.setInput_written (s : State) (i : List (Option Byte)) : (s.setInput i).written = s.written := rfl
@[simp] theorem State.setInput_pc (s : State) (i : List (Option Byte)) : (s.setInput i).pc = s.pc := rfl
@[simp] theorem State.setInput_mode (s : State) (i : List (Option Byte)) : (s.setInput i).mode = s.mode := rfl
@[simp] theorem State.setInput_csr (s : State) (i : List (Option Byte)) : (s.setInput i).csr = s.csr := rfl
@[simp] theorem State.setInput_paging (s : State) (i : List (Option Byte)) : (s.setInput i).paging = s.paging := rfl
@[simp] theorem State.setInput_ptRoot (s : State) (i : List (Option Byte)) : (s.setInput i).ptRoot = s.ptRoot := rfl
@[simp] theorem State.setInput_resv (s : State) (i : List (Option Byte)) : (s.setInput i).resv = s.resv := rfl
@[simp] theorem State.setInput_halted (s : State) (i : List (Option Byte)) : (s.setInput i).halted = s.halted := rfl
@[simp] theorem State.setInput_mem (s : State) (i : List (Option Byte)) : (s.setInput i).mem = s.mem := rfl
@[simp] theorem State.setInput_clint (s : State) (i : List (Option Byte)) : (s.setInput i).clint = s.clint := rfl
@[simp] theorem State.setInput_plic (s : State) (i : List (Option Byte)) : (s.setInput i).plic = s.plic := rfl
@[simp] theorem State.setInput_uart (s : State) (i : List (Option Byte)) : (s.setInput i).uart = s.uart := rfl
@[simp] theorem State.setInput_virtio (s : State) (i : List (Option Byte)) : (s.setInput i).virtio = s.virtio := rfl
@[simp] theorem State.setInput_disk (s : State) (i : List (Option Byte)) : (s.setInput i).disk = s.disk := rfl
@[simp] theorem State.setInput_out (s : State) (i : List (Option Byte)) : (s.setInput i).out = s.out := rfl
@[simp] theorem State.setInput_input (s : State) (i : List (Option Byte)) : (s.setInput i).input = i := rfl
@[simp] theorem State.setInput_reg (s : State) (i : List (Option Byte)) (q : RegIdx) : (s.setInput i).reg q = s.reg q := rfl
@[simp] theorem State.setInput_isWritten (s : State) (i : List (Option Byte)) (q : RegIdx) : (s.setInput i).isWritten q = s.isWritten q := rfl
@[simp] theorem State.setInput_csrRaw (s : State) (i : List (Option Byte)) (n : CsrNum) : (s.setInput i).csrRaw n = s.csrRaw n := rfl
@[simp] theorem State.setInput_byte (s : State) (i : List (Option Byte)) (k : Nat) : (s.setInput i).byte k = s.byte k := rfl

@[simp] theorem State.setCsr_cfg (s : State) (a : CsrNum) (v : Word) : (s.setCsr a v).cfg = s.cfg := rfl
@[simp] theorem State.setCsr_x (s : State) (a : CsrNum) (v : Word) : (s.setCsr a v).x = s.x := rfl
@[simp] theorem State.setCsr_written (s : State) (a : CsrNum) (v : Word) : (s.setCsr a v).written = s.written := rfl
@[simp] theorem State.setCsr_pc (s : State) (a : CsrNum) (v : Word) : (s.setCsr a v).pc = s.pc := rfl
@[simp] theorem State.setCsr_mode (s : State) (a : CsrNum) (v : Word) : (s.setCsr a v).mode = s.mode := rfl
@[simp] theorem State.setCsr_csr (s : State) (a : CsrNum) (v : Word) : (s.setCsr a v).csr = sparseWrite 0 s.csr a.toNat v := rfl
@[simp] theorem State.setCsr_paging (s : State) (a : CsrNum) (v : Word) : (s.setCsr a v).paging = s.paging := rfl
@[simp] theorem State.setCsr_ptRoot (s : State) (a : CsrNum) (v : Word) : (s.setCsr a v).ptRoot = s.ptRoot := rfl
@[simp] theorem State.setCsr_resv (s : State) (a : CsrNum) (v : Word) : (s.setCsr a v).resv = s.resv := rfl
@[simp] theorem State.setCsr_halted (s : State) (a : CsrNum) (v : Word) : (s.setCsr a v).halted = s.halted := rfl
@[simp] theorem State.setCsr_mem (s : State) (a : CsrNum) (v : Word) : (s.setCsr a v).mem = s.mem := rfl
@[simp] theorem State.setCsr_clint (s : State) (a : CsrNum) (v : Word) : (s.setCsr a v).clint = s.clint := rfl
@[simp] theorem State.setCsr_plic (s : State) (a : CsrNum) (v : Word) : (s.setCsr a v).plic = s.plic := rfl
@[simp] theorem State.setCsr_uart (s : State) (a : CsrNum) (v : Word) : (s.setCsr a v).uart = s.uart := rfl
@[simp] theorem State.setCsr_virtio (s : State) (a : CsrNum) (v : Word) : (s.setCsr a v).virtio = s.virtio := rfl
@[simp] theorem State.setCsr_disk (s : State) (a : CsrNum) (v : Word) : (s.setCsr a v).disk = s.disk := rfl
@[simp] theorem State.setCsr_out (s : State) (a : CsrNum) (v : Word) : (s.setCsr a v).out = s.out := rfl
@[simp] theorem State.setCsr_input (s : State) (a : CsrNum) (v : Word) : (s.setCsr a v).input = s.input := rfl
@[simp] theorem State.setCsr_reg (s : State) (a : CsrNum) (v : Word) (q : RegIdx) : (s.setCsr a v).reg q = s.reg q := rfl
@[simp] theorem State.setCsr_isWritten (s : State) (a : CsrNum) (v : Word) (q : RegIdx) : (s.setCsr a v).isWritten q = s.isWritten q := rfl
@[simp] theorem State.setCsr_byte (s : State) (a : CsrNum) (v : Word) (k : Nat) : (s.setCsr a v).byte k = s.byte k := rfl

@[simp] theorem State.setReg_cfg (s : State) (r : RegIdx) (v : Word) : (s.setReg r v).cfg = s.cfg := by
  unfold State.setReg; split <;> rfl
@[simp] theorem State.setReg_pc (s : State) (r : RegIdx) (v : Word) : (s.setReg r v).pc = s.pc := by
  unfold State.setReg; split <;> rfl
@[simp] theorem State.setReg_mode (s : State) (r : RegIdx) (v : Word) : (s.setReg r v).mode = s.mode := by
  unfold State.setReg; split <;> rfl
@[simp] theorem State.setReg_csr (s : State) (r : RegIdx) (v : Word) : (s.setReg r v).csr = s.csr := by
  unfold State.setReg; split <;> rfl
@[simp] theorem State.setReg_paging (s : State) (r : RegIdx) (v : Word) : (s.setReg r v).paging = s.paging := by
  unfold State.setReg; split <;> rfl
@[simp] theorem State.setReg_ptRoot (s : State) (r : RegIdx) (v : Word) : (s.setReg r v).ptRoot = s.ptRoot := by
  unfold State.setReg; split <;> rfl
@[simp] theorem State.setReg_resv (s : State) (r : RegIdx) (v : Word) : (s.setReg r v).resv = s.resv := by
  unfold State.setReg; split <;> rfl
@[simp] theorem State.setReg_halted (s : State) (r : RegIdx) (v : Word) : (s.setReg r v).halted = s.halted := by
  unfold State.setReg; split <;> rfl
@[simp] theorem State.setReg_mem (s : State) (r : RegIdx) (v : Word) : (s.setReg r v).mem = s.mem := by
  unfold State.setReg; split <;> rfl
@[simp] theorem State.setReg_clint (s : State) (r : RegIdx) (v : Word) : (s.setReg r v).clint = s.clint := by
  unfold State.setReg; split <;> rfl
@[simp] theorem State.setReg_plic (s : State) (r : RegIdx) (v : Word) : (s.setReg r v).plic = s.plic := by
  unfold State.setReg; split <;> rfl
@[simp] theorem State.setReg_uart (s : State) (r : RegIdx) (v : Word) : (s.setReg r v).uart = s.uart := by
  unfold State.setReg; split <;> rfl
@[simp] theorem State.setReg_virtio (s : State) (r : RegIdx) (v : Word) : (s.setReg r v).virtio = s.virtio := by
  unfold State.setReg; split <;> rfl
@[simp] theorem State.setReg_disk (s : State) (r : RegIdx) (v : Word) : (s.setReg r v).disk = s.disk := by
  unfold State.setReg; split <;> rfl
@[simp] theorem State.setReg_out (s : State) (r : RegIdx) (v : Word) : (s.setReg r v).out = s.out := by
  unfold State.setReg; split <;> rfl
@[simp] theorem State.setReg_input (s : State) (r : RegIdx) (v : Word) : (s.setReg r v).input = s.input := by
  unfold State.setReg; split <;> rfl
@[simp] theorem State.setReg_csrRaw (s : State) (r : RegIdx) (v : Word) (n : CsrNum) : (s.setReg r v).csrRaw n = s.csrRaw n := by
  simp [State.csrRaw]
@[simp] theorem State.setReg_byte (s : State) (r : RegIdx) (v : Word) (k : Nat) : (s.setReg r v).byte k = s.byte k := by
  simp [State.byte]

/-- `x0` reads 0. -/
@[simp] theorem State.reg_zero (s : State) : s.reg 0#5 = 0 := rfl

@[simp] theorem State.isWritten_zero (s : State) : s.isWritten 0#5 = true := rfl

/-- A write to `x0` changes nothing. -/
@[simp] theorem State.setReg_zero (s : State) (v : Word) : s.setReg 0#5 v = s := rfl

theorem State.setReg_of_ne {rd : RegIdx} (h : rd ≠ 0#5) (s : State) (v : Word) :
    s.setReg rd v =
      { s with x := s.x.set rd.toNat v rd.isLt, written := s.written.set rd.toNat true rd.isLt } := if_neg h

theorem State.reg_eq (s : State) (r : RegIdx) : s.reg r = if r = 0#5 then 0 else s.x[r.toNat]'r.isLt := rfl

theorem State.isWritten_eq (s : State) (r : RegIdx) : s.isWritten r = (r == 0#5 || s.written[r.toNat]'r.isLt) := rfl

/-- Reading a register after a write: the value at the register written, unless that is `x0`. -/
theorem State.reg_setReg (s : State) (rd r : RegIdx) (v : Word) :
    (s.setReg rd v).reg r = if r = rd ∧ rd ≠ 0#5 then v else s.reg r := by
  by_cases h0 : rd = 0#5
  · simp [h0]
  · rw [State.setReg_of_ne h0, State.reg_eq, State.reg_eq]
    by_cases hr : r = rd
    · subst hr
      simp [h0]
    · have hn : rd.toNat ≠ r.toNat := fun h => hr (BitVec.eq_of_toNat_eq h.symm)
      simp [hr, hn]

/-- After a write the register written counts as written. -/
theorem State.isWritten_setReg (s : State) (rd r : RegIdx) (v : Word) :
    (s.setReg rd v).isWritten r = (r == rd || s.isWritten r) := by
  by_cases h0 : rd = 0#5
  · by_cases hr : r = 0#5 <;> simp [h0, hr]
  · rw [State.setReg_of_ne h0, State.isWritten_eq, State.isWritten_eq]
    by_cases hr : r = rd
    · subst hr
      simp
    · have hn : rd.toNat ≠ r.toNat := fun h => hr (BitVec.eq_of_toNat_eq h.symm)
      simp [hr, hn]

/-- Nothing but the register written differs, in value or in being written. -/
theorem State.setReg_other (s : State) {rd r : RegIdx} (h : r ≠ rd) (v : Word) :
    (s.setReg rd v).reg r = s.reg r ∧ (s.setReg rd v).isWritten r = s.isWritten r := by
  simp [State.reg_setReg, State.isWritten_setReg, h]

@[simp] theorem State.advance_pc (s : State) : s.advance.pc = s.pc + 4 := rfl

end Sys2Proof.Machine
end

