-- ==== Sys2Proof/Laws/Memory.lean ====
section
/-! SUPPORT. The laws of the sparse stores, of memory, of the CSR bank and of single bits: a read after a write, and that
every operation keeps the canonical form. -/

namespace Sys2Proof.Machine

/-! ## Sparse stores -/

section Sparse

variable {α : Type} [DecidableEq α] {d : α}

theorem sparseRead_consEntry (d : α) (k : Nat) (v : α) (l : List (Nat × α)) (q : Nat) :
    sparseRead d (consEntry d k v l) q = if q = k then v else if q < k then d else sparseRead d l q := by
  unfold consEntry
  split
  · rename_i h
    obtain ⟨rfl, h⟩ := h
    cases l with
    | nil => simp [sparseRead]
    | cons e t =>
      simp only [headAbove, decide_eq_true_eq] at h
      by_cases hq : q ≤ k
      · have h1 : q ≠ e.1 := by omega
        have h2 : q < e.1 := by omega
        simp [sparseRead, h1, h2]
      · have h1 : q ≠ k := by omega
        have h2 : ¬q < k := by omega
        simp [h1, h2]
  · simp [sparseRead]

/-- A read after a write, in every list. -/
theorem sparseRead_sparseWrite (d : α) (l : List (Nat × α)) (k : Nat) (v : α) (q : Nat) :
    sparseRead d (sparseWrite d l k v) q = if q = k then v else sparseRead d l q := by
  induction l with
  | nil => by_cases h : q = k <;> simp [sparseWrite, sparseRead_consEntry, sparseRead, h]
  | cons e t ih =>
    obtain ⟨j, w⟩ := e
    unfold sparseWrite
    split
    · rename_i hk
      by_cases hq : q = k
      · simp [sparseRead_consEntry, hq]
      · by_cases hl : q < k
        · have h1 : q ≠ j := by omega
          have h2 : q < j := by omega
          simp [sparseRead_consEntry, sparseRead, hq, hl, h1, h2]
        · simp [sparseRead_consEntry, hq, hl]
    · split
      · rename_i hkj
        subst hkj
        by_cases hq : q = k
        · simp [sparseRead_consEntry, hq]
        · simp [sparseRead_consEntry, sparseRead, hq]
      · rename_i h1 h2
        by_cases hq : q = k
        · subst hq
          simp [sparseRead, ih, h1, h2]
        · simp [sparseRead, ih, hq]

omit [DecidableEq α] in
theorem headAbove_mono {j k : Nat} (h : j ≤ k) {l : List (Nat × α)} (hl : headAbove k l = true) :
    headAbove j l = true := by
  cases l with
  | nil => rfl
  | cons e t => simp only [headAbove, decide_eq_true_eq] at *; omega

theorem sparseWf_consEntry {k : Nat} {v : α} {l : List (Nat × α)} (hk : headAbove k l = true)
    (hl : sparseWf d l = true) : sparseWf d (consEntry d k v l) = true := by
  unfold consEntry
  split
  · exact hl
  · rename_i h
    have hv : v ≠ d := fun h' => h ⟨h', hk⟩
    simp [sparseWf, hv, hk, hl]

theorem headAbove_consEntry {j k : Nat} {v : α} {l : List (Nat × α)} (h : j < k) (hl : headAbove j l = true) :
    headAbove j (consEntry d k v l) = true := by
  unfold consEntry
  split
  · exact hl
  · simp [headAbove, h]

theorem sparseWf_tail {e : Nat × α} {t : List (Nat × α)} (h : sparseWf d (e :: t) = true) :
    headAbove e.1 t = true ∧ sparseWf d t = true := by
  simp [sparseWf] at h; exact ⟨h.1.2, h.2⟩

theorem headAbove_sparseWrite {j k : Nat} {v : α} {l : List (Nat × α)} (h : j < k) (hj : headAbove j l = true)
    (hl : sparseWf d l = true) : headAbove j (sparseWrite d l k v) = true := by
  cases l with
  | nil => exact headAbove_consEntry h rfl
  | cons e t =>
    obtain ⟨i, w⟩ := e
    unfold sparseWrite
    split
    · exact headAbove_consEntry h hj
    · split
      · exact headAbove_consEntry h
          (headAbove_mono (by simp only [headAbove, decide_eq_true_eq] at hj; omega) (sparseWf_tail hl).1)
      · simpa [headAbove] using hj

/-- A write keeps the canonical form. -/
theorem sparseWf_sparseWrite {l : List (Nat × α)} (hl : sparseWf d l = true) (k : Nat) (v : α) :
    sparseWf d (sparseWrite d l k v) = true := by
  induction l with
  | nil => exact sparseWf_consEntry rfl rfl
  | cons e t ih =>
    obtain ⟨j, w⟩ := e
    have ht := sparseWf_tail hl
    unfold sparseWrite
    split
    · rename_i h
      exact sparseWf_consEntry (by simp [headAbove, h]) hl
    · split
      · rename_i h
        subst h
        exact sparseWf_consEntry ht.1 ht.2
      · rename_i h1 h2
        have hw : w ≠ d := by simp [sparseWf] at hl; exact hl.1.1
        simp [sparseWf, hw, ih ht.2, headAbove_sparseWrite (show j < k by omega) ht.1 ht.2]

omit [DecidableEq α] in
/-- Below the first entry a canonical list reads as the default. -/
theorem sparseRead_of_headAbove {k q : Nat} {l : List (Nat × α)} (h : headAbove k l = true) (hq : q ≤ k) :
    sparseRead d l q = d := by
  cases l with
  | nil => rfl
  | cons e t =>
    simp only [headAbove, decide_eq_true_eq] at h
    have h1 : q ≠ e.1 := by omega
    have h2 : q < e.1 := by omega
    simp [sparseRead, h1, h2]

/-- Equal contents are equal data: two canonical lists that read alike are the same list. -/
theorem sparse_ext {l m : List (Nat × α)} (hl : sparseWf d l = true) (hm : sparseWf d m = true)
    (h : ∀ q, sparseRead d l q = sparseRead d m q) : l = m := by
  induction l generalizing m with
  | nil =>
    cases m with
    | nil => rfl
    | cons e t =>
      obtain ⟨k, v⟩ := e
      have := h k
      simp [sparseRead] at this
      simp [sparseWf, this] at hm
  | cons e t ih =>
    obtain ⟨j, w⟩ := e
    have hw : w ≠ d := by simp [sparseWf] at hl; exact hl.1.1
    cases m with
    | nil => exact absurd (by simpa [sparseRead] using h j) hw
    | cons e' t' =>
      obtain ⟨k, v⟩ := e'
      have hv : v ≠ d := by simp [sparseWf] at hm; exact hm.1.1
      have hjk : j = k := by
        rcases Nat.lt_trichotomy j k with hlt | heq | hgt
        · exact absurd (by simpa [sparseRead, show j ≠ k by omega, hlt] using h j) hw
        · exact heq
        · exact absurd (by simpa [sparseRead, show k ≠ j by omega, hgt] using (h k).symm) hv
      subst hjk
      have hwv : w = v := by simpa [sparseRead] using h j
      subst hwv
      congr 1
      refine ih (sparseWf_tail hl).2 (sparseWf_tail hm).2 fun q => ?_
      by_cases hq : q ≤ j
      · rw [sparseRead_of_headAbove (sparseWf_tail hl).1 hq, sparseRead_of_headAbove (sparseWf_tail hm).1 hq]
      · have := h q
        simpa [sparseRead, show q ≠ j by omega, show ¬q < j by omega] using this

end Sparse

/-! ## Byte stores -/

theorem Memory.read_write (m : List Host.Cell) (a : Nat) (b : Byte) (q : Nat) :
    Memory.read (Memory.write m a b) q = if q = a then b else Memory.read m q :=
  sparseRead_sparseWrite unlistedByte m a b q

theorem Memory.wf_write {m : List Host.Cell} (h : Memory.wf m = true) (a : Nat) (b : Byte) :
    Memory.wf (Memory.write m a b) = true := sparseWf_sparseWrite h a b

@[simp] theorem Memory.read_nil (q : Nat) : Memory.read [] q = 0 := rfl

/-- The bytes of a stored value, and every other byte as before. -/
theorem Memory.read_writeLE (m : List Host.Cell) (a n : Nat) (v : Word) (q : Nat) :
    Memory.read (Memory.writeLE m a n v) q =
      if a ≤ q ∧ q < a + n then v.extractLsb' (8 * (q - a)) 8 else Memory.read m q := by
  induction n generalizing m a v with
  | zero => simp [Memory.writeLE, show ¬(a ≤ q ∧ q < a) by omega]
  | succ n ih =>
    rw [Memory.writeLE, ih, Memory.read_write]
    by_cases hq : q = a
    · subst hq
      simp only [show ¬(q + 1 ≤ q ∧ q < q + 1 + n) by omega, if_false, if_true,
        show q ≤ q ∧ q < q + (n + 1) by omega, and_self]
      ext i hi
      simp
    · by_cases hr : a + 1 ≤ q ∧ q < a + 1 + n
      · simp only [hr, and_self, if_true, show a ≤ q ∧ q < a + (n + 1) by omega]
        ext i hi
        simp only [BitVec.getElem_extractLsb', BitVec.getLsbD_ushiftRight]
        congr 1
        omega
      · simp only [hr, hq, if_false, show ¬(a ≤ q ∧ q < a + (n + 1)) by omega]

theorem Memory.wf_writeLE {m : List Host.Cell} (h : Memory.wf m = true) (a n : Nat) (v : Word) :
    Memory.wf (Memory.writeLE m a n v) = true := by
  induction n generalizing m a v with
  | zero => exact h
  | succ n ih => exact ih (Memory.wf_write h _ _) _ _

/-- A byte sequence copied into memory. -/
theorem Memory.read_writeBytes (m : List Host.Cell) (a : Nat) (bytes : List Byte) (q : Nat) :
    Memory.read (Memory.writeBytes m a bytes) q =
      if a ≤ q then (bytes[q - a]?).getD (Memory.read m q) else Memory.read m q := by
  induction bytes generalizing m a with
  | nil => simp [Memory.writeBytes]
  | cons b t ih =>
    rw [Memory.writeBytes, ih, Memory.read_write]
    by_cases hq : q = a
    · subst hq; simp
    · by_cases hl : a ≤ q
      · have h1 : a + 1 ≤ q := by omega
        have h2 : q - a = (q - (a + 1)) + 1 := by omega
        simp [hl, h1, hq, h2]
      · simp [hl, hq, show ¬a + 1 ≤ q by omega]

theorem Memory.wf_writeBytes {m : List Host.Cell} (h : Memory.wf m = true) (a : Nat) (bytes : List Byte) :
    Memory.wf (Memory.writeBytes m a bytes) = true := by
  induction bytes generalizing m a with
  | nil => exact h
  | cons b t ih => exact ih (Memory.wf_write h _ _) _

/-- The number in the bytes a little-endian read takes. -/
def Memory.number (m : List Host.Cell) (a : Nat) : Nat → Nat
  | 0 => 0
  | n + 1 => (Memory.read m a).toNat + 256 * Memory.number m (a + 1) n

theorem Memory.number_lt (m : List Host.Cell) (a n : Nat) : Memory.number m a n < 256 ^ n := by
  induction n generalizing a with
  | zero => simp [Memory.number]
  | succ n ih =>
    have h1 := (Memory.read m a).isLt
    have h2 := ih (a + 1)
    rw [Memory.number, Nat.pow_succ]
    omega

theorem Memory.readLE_toNat (m : List Host.Cell) (a n : Nat) (hn : n ≤ 8) :
    (Memory.readLE m a n).toNat = Memory.number m a n := by
  induction n generalizing a with
  | zero => rfl
  | succ n ih =>
    have h1 := (Memory.read m a).isLt
    have h2 := Memory.number_lt m (a + 1) n
    have h3 : 256 ^ n ≤ 256 ^ 7 := Nat.pow_le_pow_right (by decide) (by omega)
    have h4 : Memory.number m (a + 1) n * 256 < 2 ^ 64 := by
      calc _ < 256 ^ 7 * 256 := by omega
        _ = 2 ^ 64 := by norm_num
    have h5 : (Memory.read m a).toNat % 2 ^ 64 = (Memory.read m a).toNat := Nat.mod_eq_of_lt (by omega)
    rw [Memory.readLE, Memory.number, BitVec.toNat_or, BitVec.toNat_setWidth, BitVec.toNat_shiftLeft, ih _ (by omega),
      Nat.shiftLeft_eq, h5, show (2 : Nat) ^ 8 = 256 from rfl, Nat.mod_eq_of_lt h4, Nat.or_comm, Nat.mul_comm,
      show (256 : Nat) = 2 ^ 8 from rfl, ← Nat.two_pow_add_eq_or_of_lt (by omega : (Memory.read m a).toNat < 2 ^ 8)]
    omega

theorem Memory.readLE_lt (m : List Host.Cell) (a n : Nat) (hn : n ≤ 8) : (Memory.readLE m a n).toNat < 256 ^ n := by
  rw [Memory.readLE_toNat m a n hn]; exact Memory.number_lt m a n

/-- Byte `k` of a little-endian read. -/
theorem Memory.readLE_byte (m : List Host.Cell) (a n k : Nat) (hk : k < n) (hn : n ≤ 8) :
    (Memory.readLE m a n).extractLsb' (8 * k) 8 = Memory.read m (a + k) := by
  induction n generalizing a k with
  | zero => omega
  | succ n ih =>
    rw [Memory.readLE]
    cases k with
    | zero =>
      ext i hi
      simp [show i < 64 by omega, hi]
    | succ k =>
      rw [show a + (k + 1) = (a + 1) + k by omega, ← ih (a + 1) k (by omega) (by omega)]
      ext i hi
      have h1 : 8 * (k + 1) + i < 64 := by omega
      have h2 : ¬8 * (k + 1) + i < 8 := by omega
      have h3 : 8 * (k + 1) + i - 8 = 8 * k + i := by omega
      simp only [BitVec.getElem_extractLsb', BitVec.getLsbD_or, BitVec.getLsbD_setWidth, BitVec.getLsbD_shiftLeft,
        h1, h2, h3, decide_true, decide_false, Bool.not_false, Bool.true_and,
        BitVec.getLsbD_of_ge (Memory.read m a) _ (by omega : 8 ≤ 8 * (k + 1) + i), Bool.false_or]

/-! ## Bytes of the state -/

theorem State.byte_setMem (s : State) (m : List Host.Cell) (q : Nat) : (s.setMem m).byte q = Memory.read m q := rfl

/-! ## The CSR bank -/

/-- A CSR read after a CSR write. -/
theorem State.csrRaw_setCsr (s : State) (a b : CsrNum) (v : Word) :
    (s.setCsr a v).csrRaw b = if b = a then v else s.csrRaw b := by
  by_cases h : b = a
  · simp [State.csrRaw, h, sparseRead_sparseWrite]
  · have hn : b.toNat ≠ a.toNat := fun h' => h (BitVec.eq_of_toNat_eq h')
    simp [State.csrRaw, h, hn, sparseRead_sparseWrite]

@[simp] theorem State.csrRaw_setCsr_self (s : State) (a : CsrNum) (v : Word) : (s.setCsr a v).csrRaw a = v := by
  simp [State.csrRaw_setCsr]

theorem State.csrRaw_setCsr_other (s : State) {a b : CsrNum} (h : b ≠ a) (v : Word) :
    (s.setCsr a v).csrRaw b = s.csrRaw b := by
  simp [State.csrRaw_setCsr, h]

/-- The canonical form of the bank after a write. -/
theorem State.csr_wf_setCsr {s : State} (h : sparseWf 0 s.csr = true) (a : CsrNum) (v : Word) :
    sparseWf 0 (s.setCsr a v).csr = true := sparseWf_sparseWrite h a.toNat v

/-! ## Bits -/

/-- The bits of a word with one bit set. -/
theorem getLsbD_setBit (w : Word) (i : Nat) (b : Bool) (j : Nat) (hj : j < 64) :
    (setBit w i b).getLsbD j = if j = i then b else w.getLsbD j := by
  have h1 : (1#64).getLsbD (j - i) = decide (j - i = 0) := by
    simp [BitVec.getLsbD_one]
  unfold setBit
  by_cases hij : j = i
  · subst hij
    cases b <;> simp [hj]
  · by_cases hlt : j < i
    · cases b <;> simp [hj, hij, hlt]
    · have : ¬j - i = 0 := by omega
      cases b <;> simp [hj, hij, hlt, this]

theorem getLsbD_setMpp (w : Word) (m : BitVec 2) (j : Nat) (hj : j < 64) :
    (setMpp w m).getLsbD j = if j = 12 then m.getLsbD 1 else if j = 11 then m.getLsbD 0 else w.getLsbD j := by
  simp only [setMpp, getLsbD_setBit _ _ _ _ hj]

end Sys2Proof.Machine
end

