-- ==== Sys2Proof/Laws/Bus.lean ====
section
/-! SUPPORT. What the bus and address translation can do: where an address lies, the outcomes of a load and of a store,
what each changes, and what each depends on. -/

namespace Sys2Proof.Machine

/-! ## Regions -/

/-- With admissible parameters no device window reaches DRAM. -/
theorem Config.contains_false_of_dram {c : Config} (hc : c.admissible = true) {pa : Nat} (h : c.dramBase ≤ pa) :
    c.clint.contains pa = false ∧ c.plic.contains pa = false ∧ c.uart.contains pa = false ∧
      c.virtio.contains pa = false := by
  simp [Config.admissible] at hc
  simp [Window.contains]
  omega

theorem Config.dram_le_of_admissible {c : Config} (hc : c.admissible = true) : c.dramBase + c.dramSize ≤ 2 ^ 64 := by
  simp [Config.admissible] at hc
  omega

/-- At and above `DRAM_BASE` lies DRAM. -/
theorem regionOf_dram {c : Config} (hc : c.admissible = true) {pa : Nat} (h : c.dramBase ≤ pa) :
    regionOf c pa = .dram (pa - c.dramBase) := by
  obtain ⟨h1, h2, h3, h4⟩ := Config.contains_false_of_dram hc h
  simp [regionOf, h1, h2, h3, h4, h]

/-- Only an address at or above `DRAM_BASE` lies in DRAM. -/
theorem regionOf_eq_dram {c : Config} {pa off : Nat} (h : regionOf c pa = .dram off) :
    c.dramBase ≤ pa ∧ off = pa - c.dramBase := by
  unfold regionOf at h
  repeat' split at h
  all_goals simp at h
  rename_i h'
  exact ⟨h', h.symm⟩

/-! ## Loads -/

/-- A load fails only with the access fault of its kind. -/
theorem busLoad_error {s : State} {pa : Word} {n : Width} {k : AccessKind} {e : Exc}
    (h : busLoad s pa n k = .error e) : e = k.accessFault := by
  unfold busLoad at h
  split at h
  all_goals first | (cases h; rfl) | (split at h <;> first | (cases h; done) | (cases h; rfl))

/-- A load changes nothing, but for a byte load at the console's offset 0. -/
theorem busLoad_ok {s s' : State} {pa v : Word} {n : Width} {k : AccessKind} (h : busLoad s pa n k = .ok (v, s')) :
    s' = s ∨ (n = .byte ∧ regionOf s.cfg pa.toNat = .uart 0 ∧ s' = s.setUart (s.uart.setReg 5 (s.uart.lsr &&& ~~~1#8))) := by
  unfold busLoad at h
  split at h
  · cases h
  · split at h <;> cases h; exact .inl rfl
  · split at h <;> cases h; exact .inl rfl
  · split at h <;> cases h; exact .inl rfl
  · rename_i off hr
    split at h <;> cases h
    rename_i hn
    by_cases h0 : off = 0
    · subst h0
      exact .inr ⟨hn, hr, rfl⟩
    · exact .inl (by simp [Uart.afterLoad, h0, State.setUart])
  · split at h <;> cases h; exact .inl rfl

/-- A load wider than a byte changes nothing. -/
theorem busLoad_wide {s s' : State} {pa v : Word} {n : Width} {k : AccessKind} (h : busLoad s pa n k = .ok (v, s'))
    (hn : n ≠ .byte) : s' = s := by
  rcases busLoad_ok h with h' | ⟨h', -⟩
  · exact h'
  · exact absurd h' hn

/-- A load inside DRAM gives the bytes there. -/
theorem busLoad_dram {s : State} {pa : Word} {n : Width} (hc : s.cfg.admissible = true)
    (h1 : s.cfg.dramBase ≤ pa.toNat) (h2 : pa.toNat + n.bytes ≤ s.cfg.dramBase + s.cfg.dramSize) (k : AccessKind) :
    busLoad s pa n k = .ok (Memory.readLE s.mem pa.toNat n.bytes, s) := by
  have h3 : pa.toNat - s.cfg.dramBase + n.bytes ≤ s.cfg.dramSize := by omega
  simp [busLoad, regionOf_dram hc h1, h3]

theorem Width.bytes_le (n : Width) : n.bytes ≤ 8 := by cases n <;> decide

theorem Width.bytes_pos (n : Width) : 0 < n.bytes := by cases n <;> decide

/-! ## Stores -/

/-- A store fails only with the access fault of its kind. -/
theorem busStore_error {s : State} {pa v : Word} {n : Width} {k : AccessKind} {e : Exc}
    (h : busStore s pa n v k = .error e) : e = k.accessFault := by
  unfold busStore at h
  split at h
  all_goals first | (cases h; rfl) | (split at h <;> first | (cases h; done) | (cases h; rfl))

/-- Everything a store can do: one update of DRAM, of one device's registers or of the console output. -/
theorem busStore_ok {s t : State} {pa v : Word} {n : Width} {k : AccessKind} (h : busStore s pa n v k = .ok t) :
    (s.cfg.dramBase ≤ pa.toNat ∧ pa.toNat + n.bytes ≤ s.cfg.dramBase + s.cfg.dramSize ∧
      t = s.setMem (Memory.writeLE s.mem pa.toNat n.bytes v)) ∨
    (∃ c, t = s.setClint c) ∨ (∃ p, t = s.setPlic p) ∨ (∃ o, t = s.setOut o) ∨
    (∃ off b, t = s.setUart (s.uart.setReg off b)) ∨ (∃ w, t = s.setVirtio w) := by
  unfold busStore at h
  split at h
  · cases h
  · rename_i hr
    obtain ⟨h1, rfl⟩ := regionOf_eq_dram hr
    split at h <;> cases h
    exact .inl ⟨h1, by omega, rfl⟩
  · split at h <;> cases h; exact .inr (.inl ⟨_, rfl⟩)
  · split at h <;> cases h; exact .inr (.inr (.inl ⟨_, rfl⟩))
  · rename_i off hr
    split at h <;> cases h
    unfold uartStore
    split
    · exact .inr (.inr (.inr (.inl ⟨_, rfl⟩)))
    · exact .inr (.inr (.inr (.inr (.inl ⟨_, _, rfl⟩))))
  · split at h <;> cases h; exact .inr (.inr (.inr (.inr (.inr ⟨_, rfl⟩))))

/-- A store inside DRAM. -/
theorem busStore_dram {s : State} {pa v : Word} {n : Width} (hc : s.cfg.admissible = true)
    (h1 : s.cfg.dramBase ≤ pa.toNat) (h2 : pa.toNat + n.bytes ≤ s.cfg.dramBase + s.cfg.dramSize) (k : AccessKind) :
    busStore s pa n v k = .ok (s.setMem (Memory.writeLE s.mem pa.toNat n.bytes v)) := by
  have h3 : pa.toNat - s.cfg.dramBase + n.bytes ≤ s.cfg.dramSize := by omega
  simp [busStore, regionOf_dram hc h1, h3]

/-- Whether an access succeeds depends on the parameters, the address and the width alone. -/
def Accessible (c : Config) (pa : Nat) (n : Width) : Prop :=
  match regionOf c pa with
  | .unmapped => False
  | .dram off => off + n.bytes ≤ c.dramSize
  | .clint _ => n = .double
  | .plic _ => n = .word
  | .uart _ => n = .byte
  | .virtio _ => n = .word

theorem busLoad_isOk_iff (s : State) (pa : Word) (n : Width) (k : AccessKind) :
    (∃ v s', busLoad s pa n k = .ok (v, s')) ↔ Accessible s.cfg pa.toNat n := by
  unfold busLoad Accessible
  cases regionOf s.cfg pa.toNat
  case unmapped => simp
  all_goals (dsimp only; split <;> simp_all)

theorem busStore_isOk_iff (s : State) (pa v : Word) (n : Width) (k : AccessKind) :
    (∃ t, busStore s pa n v k = .ok t) ↔ Accessible s.cfg pa.toNat n := by
  unfold busStore Accessible
  cases regionOf s.cfg pa.toNat
  case unmapped => simp
  all_goals (dsimp only; split <;> simp_all)

/-! ## The parameters and the mode -/

theorem busLoad_cfg {s s' : State} {pa v : Word} {n : Width} {k : AccessKind} (h : busLoad s pa n k = .ok (v, s')) :
    s'.cfg = s.cfg := by
  rcases busLoad_ok h with rfl | ⟨-, -, rfl⟩ <;> rfl

theorem busStore_cfg {s t : State} {pa v : Word} {n : Width} {k : AccessKind} (h : busStore s pa n v k = .ok t) :
    t.cfg = s.cfg := by
  rcases busStore_ok h with ⟨-, -, rfl⟩ | ⟨_, rfl⟩ | ⟨_, rfl⟩ | ⟨_, rfl⟩ | ⟨_, _, rfl⟩ | ⟨_, rfl⟩ <;> rfl

/-- The bus does not look at the mode. -/
theorem busLoad_setMode (s : State) (m : Mode) (pa : Word) (n : Width) (k : AccessKind) :
    busLoad (s.setMode m) pa n k = (busLoad s pa n k).map fun r => (r.1, r.2.setMode m) := by
  unfold busLoad
  rw [State.setMode_cfg]
  cases regionOf s.cfg pa.toNat
  case unmapped => rfl
  case dram off => by_cases h : off + n.bytes ≤ s.cfg.dramSize <;> simp [h, Except.map]
  all_goals (cases n <;> rfl)

theorem busStore_setMode (s : State) (m : Mode) (pa v : Word) (n : Width) (k : AccessKind) :
    busStore (s.setMode m) pa n v k = (busStore s pa n v k).map fun t => t.setMode m := by
  unfold busStore
  rw [State.setMode_cfg]
  cases regionOf s.cfg pa.toNat
  case unmapped => rfl
  case dram off => by_cases h : off + n.bytes ≤ s.cfg.dramSize <;> simp [h, Except.map] <;> rfl
  case uart off => cases n <;> try rfl
                   by_cases h : off = 0 <;> simp [h, Except.map, uartStore] <;> rfl
  all_goals (cases n <;> rfl)

/-! ## Translation -/

theorem walk_error {s : State} {va : Word} {k : AccessKind} {levels : Nat} {a : Word} {e : Exc}
    (h : walk s va k levels a = .error e) : e = k.pageFault ∨ e = k.accessFault := by
  induction levels generalizing a with
  | zero => cases h; exact .inl rfl
  | succ i ih =>
    unfold walk at h
    split at h
    · cases h; exact .inr rfl
    · split at h
      · cases h; exact .inl rfl
      · split at h
        · cases h
        · exact ih h

/-- Translation fails only with the page fault or the access fault of the kind. -/
theorem translate_error {s : State} {va : Word} {k : AccessKind} {e : Exc} (h : translate s va k = .error e) :
    e = k.pageFault ∨ e = k.accessFault := by
  unfold translate at h
  split at h
  · exact walk_error h
  · cases h

/-- With paging off translation is the identity. -/
theorem translate_off {s : State} (h : s.paging = false) (va : Word) (k : AccessKind) : translate s va k = .ok va := by
  simp [translate, h]

/-- The walk looks at the virtual page numbers and the page offset only. -/
theorem walk_congr_va {s : State} {va vb : Word} (hv : ∀ i, i < 3 → vpn va i = vpn vb i)
    (ho : va.extractLsb' 0 12 = vb.extractLsb' 0 12) (k : AccessKind) (levels : Nat) (hl : levels ≤ 3) (a : Word) :
    walk s va k levels a = walk s vb k levels a := by
  induction levels generalizing a with
  | zero => rfl
  | succ i ih =>
    have h0 := hv 0 (by omega)
    have h1 := hv 1 (by omega)
    have hr : ∀ pte, reconstruct pte i va = reconstruct pte i vb := by
      intro pte
      unfold reconstruct
      rw [h0, h1, ho]
    unfold walk
    rw [hv i (by omega)]
    simp only [hr, ih (by omega)]

theorem walk_setMode (s : State) (m : Mode) (va : Word) (k : AccessKind) (levels : Nat) (a : Word) :
    walk (s.setMode m) va k levels a = walk s va k levels a := by
  induction levels generalizing a with
  | zero => rfl
  | succ i ih =>
    unfold walk
    rw [busLoad_setMode]
    cases busLoad s (a + (vpn va i).setWidth 64 * 8) .double .load with
    | error e => rfl
    | ok r => simp only [Except.map, ih, State.setMode_cfg]

/-- Translation does not look at the mode. -/
theorem translate_setMode (s : State) (m : Mode) (va : Word) (k : AccessKind) :
    translate (s.setMode m) va k = translate s va k := by
  simp only [translate, State.setMode_paging, State.setMode_ptRoot, walk_setMode]

end Sys2Proof.Machine
end

