-- ==== Sys2Proof/Laws/Traps.lean ====
section
/-! SUPPORT. What taking a trap and returning from one leave alone, field by field, and what each CSR holds after. -/

namespace Sys2Proof.Machine

@[simp] theorem State.enterS_cfg (s : State) (t : Trap) : (s.enterS t).cfg = s.cfg := by simp [State.enterS]
@[simp] theorem State.enterS_x (s : State) (t : Trap) : (s.enterS t).x = s.x := by simp [State.enterS]
@[simp] theorem State.enterS_written (s : State) (t : Trap) : (s.enterS t).written = s.written := by simp [State.enterS]
@[simp] theorem State.enterS_paging (s : State) (t : Trap) : (s.enterS t).paging = s.paging := by simp [State.enterS]
@[simp] theorem State.enterS_ptRoot (s : State) (t : Trap) : (s.enterS t).ptRoot = s.ptRoot := by simp [State.enterS]
@[simp] theorem State.enterS_halted (s : State) (t : Trap) : (s.enterS t).halted = s.halted := by simp [State.enterS]
@[simp] theorem State.enterS_mem (s : State) (t : Trap) : (s.enterS t).mem = s.mem := by simp [State.enterS]
@[simp] theorem State.enterS_clint (s : State) (t : Trap) : (s.enterS t).clint = s.clint := by simp [State.enterS]
@[simp] theorem State.enterS_plic (s : State) (t : Trap) : (s.enterS t).plic = s.plic := by simp [State.enterS]
@[simp] theorem State.enterS_uart (s : State) (t : Trap) : (s.enterS t).uart = s.uart := by simp [State.enterS]
@[simp] theorem State.enterS_virtio (s : State) (t : Trap) : (s.enterS t).virtio = s.virtio := by simp [State.enterS]
@[simp] theorem State.enterS_disk (s : State) (t : Trap) : (s.enterS t).disk = s.disk := by simp [State.enterS]
@[simp] theorem State.enterS_out (s : State) (t : Trap) : (s.enterS t).out = s.out := by simp [State.enterS]
@[simp] theorem State.enterS_input (s : State) (t : Trap) : (s.enterS t).input = s.input := by simp [State.enterS]
@[simp] theorem State.enterS_resv (s : State) (t : Trap) : (s.enterS t).resv = s.resv := by simp [State.enterS]
@[simp] theorem State.enterS_reg (s : State) (t : Trap) (r : RegIdx) : (s.enterS t).reg r = s.reg r := by simp [State.enterS]
@[simp] theorem State.enterS_isWritten (s : State) (t : Trap) (r : RegIdx) : (s.enterS t).isWritten r = s.isWritten r := by simp [State.enterS]
@[simp] theorem State.enterS_byte (s : State) (t : Trap) (k : Nat) : (s.enterS t).byte k = s.byte k := by simp [State.enterS]

@[simp] theorem State.enterM_cfg (s : State) (t : Trap) : (s.enterM t).cfg = s.cfg := by simp [State.enterM]
@[simp] theorem State.enterM_x (s : State) (t : Trap) : (s.enterM t).x = s.x := by simp [State.enterM]
@[simp] theorem State.enterM_written (s : State) (t : Trap) : (s.enterM t).written = s.written := by simp [State.enterM]
@[simp] theorem State.enterM_paging (s : State) (t : Trap) : (s.enterM t).paging = s.paging := by simp [State.enterM]
@[simp] theorem State.enterM_ptRoot (s : State) (t : Trap) : (s.enterM t).ptRoot = s.ptRoot := by simp [State.enterM]
@[simp] theorem State.enterM_halted (s : State) (t : Trap) : (s.enterM t).halted = s.halted := by simp [State.enterM]
@[simp] theorem State.enterM_mem (s : State) (t : Trap) : (s.enterM t).mem = s.mem := by simp [State.enterM]
@[simp] theorem State.enterM_clint (s : State) (t : Trap) : (s.enterM t).clint = s.clint := by simp [State.enterM]
@[simp] theorem State.enterM_plic (s : State) (t : Trap) : (s.enterM t).plic = s.plic := by simp [State.enterM]
@[simp] theorem State.enterM_uart (s : State) (t : Trap) : (s.enterM t).uart = s.uart := by simp [State.enterM]
@[simp] theorem State.enterM_virtio (s : State) (t : Trap) : (s.enterM t).virtio = s.virtio := by simp [State.enterM]
@[simp] theorem State.enterM_disk (s : State) (t : Trap) : (s.enterM t).disk = s.disk := by simp [State.enterM]
@[simp] theorem State.enterM_out (s : State) (t : Trap) : (s.enterM t).out = s.out := by simp [State.enterM]
@[simp] theorem State.enterM_input (s : State) (t : Trap) : (s.enterM t).input = s.input := by simp [State.enterM]
@[simp] theorem State.enterM_resv (s : State) (t : Trap) : (s.enterM t).resv = s.resv := by simp [State.enterM]
@[simp] theorem State.enterM_reg (s : State) (t : Trap) (r : RegIdx) : (s.enterM t).reg r = s.reg r := by simp [State.enterM]
@[simp] theorem State.enterM_isWritten (s : State) (t : Trap) (r : RegIdx) : (s.enterM t).isWritten r = s.isWritten r := by simp [State.enterM]
@[simp] theorem State.enterM_byte (s : State) (t : Trap) (k : Nat) : (s.enterM t).byte k = s.byte k := by simp [State.enterM]

@[simp] theorem State.returnS_cfg (s : State) : (s.returnS).cfg = s.cfg := by simp [State.returnS]
@[simp] theorem State.returnS_x (s : State) : (s.returnS).x = s.x := by simp [State.returnS]
@[simp] theorem State.returnS_written (s : State) : (s.returnS).written = s.written := by simp [State.returnS]
@[simp] theorem State.returnS_paging (s : State) : (s.returnS).paging = s.paging := by simp [State.returnS]
@[simp] theorem State.returnS_ptRoot (s : State) : (s.returnS).ptRoot = s.ptRoot := by simp [State.returnS]
@[simp] theorem State.returnS_halted (s : State) : (s.returnS).halted = s.halted := by simp [State.returnS]
@[simp] theorem State.returnS_mem (s : State) : (s.returnS).mem = s.mem := by simp [State.returnS]
@[simp] theorem State.returnS_clint (s : State) : (s.returnS).clint = s.clint := by simp [State.returnS]
@[simp] theorem State.returnS_plic (s : State) : (s.returnS).plic = s.plic := by simp [State.returnS]
@[simp] theorem State.returnS_uart (s : State) : (s.returnS).uart = s.uart := by simp [State.returnS]
@[simp] theorem State.returnS_virtio (s : State) : (s.returnS).virtio = s.virtio := by simp [State.returnS]
@[simp] theorem State.returnS_disk (s : State) : (s.returnS).disk = s.disk := by simp [State.returnS]
@[simp] theorem State.returnS_out (s : State) : (s.returnS).out = s.out := by simp [State.returnS]
@[simp] theorem State.returnS_input (s : State) : (s.returnS).input = s.input := by simp [State.returnS]
@[simp] theorem State.returnS_resv (s : State) : (s.returnS).resv = s.resv := by simp [State.returnS]
@[simp] theorem State.returnS_reg (s : State) (r : RegIdx) : (s.returnS).reg r = s.reg r := by simp [State.returnS]
@[simp] theorem State.returnS_isWritten (s : State) (r : RegIdx) : (s.returnS).isWritten r = s.isWritten r := by simp [State.returnS]
@[simp] theorem State.returnS_byte (s : State) (k : Nat) : (s.returnS).byte k = s.byte k := by simp [State.returnS]

@[simp] theorem State.returnM_cfg (s : State) (m : Mode) : (s.returnM m).cfg = s.cfg := by simp [State.returnM]
@[simp] theorem State.returnM_x (s : State) (m : Mode) : (s.returnM m).x = s.x := by simp [State.returnM]
@[simp] theorem State.returnM_written (s : State) (m : Mode) : (s.returnM m).written = s.written := by simp [State.returnM]
@[simp] theorem State.returnM_paging (s : State) (m : Mode) : (s.returnM m).paging = s.paging := by simp [State.returnM]
@[simp] theorem State.returnM_ptRoot (s : State) (m : Mode) : (s.returnM m).ptRoot = s.ptRoot := by simp [State.returnM]
@[simp] theorem State.returnM_halted (s : State) (m : Mode) : (s.returnM m).halted = s.halted := by simp [State.returnM]
@[simp] theorem State.returnM_mem (s : State) (m : Mode) : (s.returnM m).mem = s.mem := by simp [State.returnM]
@[simp] theorem State.returnM_clint (s : State) (m : Mode) : (s.returnM m).clint = s.clint := by simp [State.returnM]
@[simp] theorem State.returnM_plic (s : State) (m : Mode) : (s.returnM m).plic = s.plic := by simp [State.returnM]
@[simp] theorem State.returnM_uart (s : State) (m : Mode) : (s.returnM m).uart = s.uart := by simp [State.returnM]
@[simp] theorem State.returnM_virtio (s : State) (m : Mode) : (s.returnM m).virtio = s.virtio := by simp [State.returnM]
@[simp] theorem State.returnM_disk (s : State) (m : Mode) : (s.returnM m).disk = s.disk := by simp [State.returnM]
@[simp] theorem State.returnM_out (s : State) (m : Mode) : (s.returnM m).out = s.out := by simp [State.returnM]
@[simp] theorem State.returnM_input (s : State) (m : Mode) : (s.returnM m).input = s.input := by simp [State.returnM]
@[simp] theorem State.returnM_resv (s : State) (m : Mode) : (s.returnM m).resv = s.resv := by simp [State.returnM]
@[simp] theorem State.returnM_reg (s : State) (m : Mode) (r : RegIdx) : (s.returnM m).reg r = s.reg r := by simp [State.returnM]
@[simp] theorem State.returnM_isWritten (s : State) (m : Mode) (r : RegIdx) : (s.returnM m).isWritten r = s.isWritten r := by simp [State.returnM]
@[simp] theorem State.returnM_byte (s : State) (m : Mode) (k : Nat) : (s.returnM m).byte k = s.byte k := by simp [State.returnM]

@[simp] theorem State.takeTrap_cfg (s : State) (t : Trap) : (s.takeTrap t).cfg = s.cfg := by
  unfold State.takeTrap; split <;> simp
@[simp] theorem State.takeTrap_x (s : State) (t : Trap) : (s.takeTrap t).x = s.x := by
  unfold State.takeTrap; split <;> simp
@[simp] theorem State.takeTrap_written (s : State) (t : Trap) : (s.takeTrap t).written = s.written := by
  unfold State.takeTrap; split <;> simp
@[simp] theorem State.takeTrap_paging (s : State) (t : Trap) : (s.takeTrap t).paging = s.paging := by
  unfold State.takeTrap; split <;> simp
@[simp] theorem State.takeTrap_ptRoot (s : State) (t : Trap) : (s.takeTrap t).ptRoot = s.ptRoot := by
  unfold State.takeTrap; split <;> simp
@[simp] theorem State.takeTrap_halted (s : State) (t : Trap) : (s.takeTrap t).halted = s.halted := by
  unfold State.takeTrap; split <;> simp
@[simp] theorem State.takeTrap_mem (s : State) (t : Trap) : (s.takeTrap t).mem = s.mem := by
  unfold State.takeTrap; split <;> simp
@[simp] theorem State.takeTrap_clint (s : State) (t : Trap) : (s.takeTrap t).clint = s.clint := by
  unfold State.takeTrap; split <;> simp
@[simp] theorem State.takeTrap_plic (s : State) (t : Trap) : (s.takeTrap t).plic = s.plic := by
  unfold State.takeTrap; split <;> simp
@[simp] theorem State.takeTrap_uart (s : State) (t : Trap) : (s.takeTrap t).uart = s.uart := by
  unfold State.takeTrap; split <;> simp
@[simp] theorem State.takeTrap_virtio (s : State) (t : Trap) : (s.takeTrap t).virtio = s.virtio := by
  unfold State.takeTrap; split <;> simp
@[simp] theorem State.takeTrap_disk (s : State) (t : Trap) : (s.takeTrap t).disk = s.disk := by
  unfold State.takeTrap; split <;> simp
@[simp] theorem State.takeTrap_out (s : State) (t : Trap) : (s.takeTrap t).out = s.out := by
  unfold State.takeTrap; split <;> simp
@[simp] theorem State.takeTrap_input (s : State) (t : Trap) : (s.takeTrap t).input = s.input := by
  unfold State.takeTrap; split <;> simp
@[simp] theorem State.takeTrap_reg (s : State) (t : Trap) (r : RegIdx) : (s.takeTrap t).reg r = s.reg r := by
  unfold State.takeTrap; split <;> simp
@[simp] theorem State.takeTrap_isWritten (s : State) (t : Trap) (r : RegIdx) : (s.takeTrap t).isWritten r = s.isWritten r := by
  unfold State.takeTrap; split <;> simp
@[simp] theorem State.takeTrap_byte (s : State) (t : Trap) (k : Nat) : (s.takeTrap t).byte k = s.byte k := by
  unfold State.takeTrap; split <;> simp
@[simp] theorem State.takeTrap_resv (s : State) (t : Trap) : (s.takeTrap t).resv = none := by simp [State.takeTrap]

@[simp] theorem State.deliver_cfg (s : State) (e : Exc) : (s.deliver e).cfg = s.cfg := by
  unfold State.deliver; split <;> simp
@[simp] theorem State.deliver_x (s : State) (e : Exc) : (s.deliver e).x = s.x := by
  unfold State.deliver; split <;> simp
@[simp] theorem State.deliver_written (s : State) (e : Exc) : (s.deliver e).written = s.written := by
  unfold State.deliver; split <;> simp
@[simp] theorem State.deliver_paging (s : State) (e : Exc) : (s.deliver e).paging = s.paging := by
  unfold State.deliver; split <;> simp
@[simp] theorem State.deliver_ptRoot (s : State) (e : Exc) : (s.deliver e).ptRoot = s.ptRoot := by
  unfold State.deliver; split <;> simp
@[simp] theorem State.deliver_mem (s : State) (e : Exc) : (s.deliver e).mem = s.mem := by
  unfold State.deliver; split <;> simp
@[simp] theorem State.deliver_clint (s : State) (e : Exc) : (s.deliver e).clint = s.clint := by
  unfold State.deliver; split <;> simp
@[simp] theorem State.deliver_plic (s : State) (e : Exc) : (s.deliver e).plic = s.plic := by
  unfold State.deliver; split <;> simp
@[simp] theorem State.deliver_uart (s : State) (e : Exc) : (s.deliver e).uart = s.uart := by
  unfold State.deliver; split <;> simp
@[simp] theorem State.deliver_virtio (s : State) (e : Exc) : (s.deliver e).virtio = s.virtio := by
  unfold State.deliver; split <;> simp
@[simp] theorem State.deliver_disk (s : State) (e : Exc) : (s.deliver e).disk = s.disk := by
  unfold State.deliver; split <;> simp
@[simp] theorem State.deliver_out (s : State) (e : Exc) : (s.deliver e).out = s.out := by
  unfold State.deliver; split <;> simp
@[simp] theorem State.deliver_input (s : State) (e : Exc) : (s.deliver e).input = s.input := by
  unfold State.deliver; split <;> simp
@[simp] theorem State.deliver_resv (s : State) (e : Exc) : (s.deliver e).resv = none := by
  unfold State.deliver; split <;> simp
@[simp] theorem State.deliver_reg (s : State) (e : Exc) (r : RegIdx) : (s.deliver e).reg r = s.reg r := by
  unfold State.deliver; split <;> simp
@[simp] theorem State.deliver_isWritten (s : State) (e : Exc) (r : RegIdx) : (s.deliver e).isWritten r = s.isWritten r := by
  unfold State.deliver; split <;> simp
@[simp] theorem State.deliver_byte (s : State) (e : Exc) (k : Nat) : (s.deliver e).byte k = s.byte k := by
  unfold State.deliver; split <;> simp

/-- A fatal exception halts the machine. -/
@[simp] theorem State.deliver_halted (s : State) (e : Exc) : (s.deliver e).halted = (e.fatal || s.halted) := by
  unfold State.deliver; split <;> simp_all

/-- Delivering is taking the trap, but for `halted`. -/
@[simp] theorem State.deliver_pc (s : State) (e : Exc) : (s.deliver e).pc = (s.takeTrap (.exc e)).pc := by
  unfold State.deliver; split <;> simp
@[simp] theorem State.deliver_mode (s : State) (e : Exc) : (s.deliver e).mode = (s.takeTrap (.exc e)).mode := by
  unfold State.deliver; split <;> simp
@[simp] theorem State.deliver_csrRaw (s : State) (e : Exc) (a : CsrNum) :
    (s.deliver e).csrRaw a = (s.takeTrap (.exc e)).csrRaw a := by
  unfold State.deliver; split <;> simp

/-! ## The CSRs after a trap -/

/-- The Supervisor CSRs after entry to Supervisor mode; every other CSR is unchanged. -/
theorem State.enterS_csrRaw (s : State) (t : Trap) (a : CsrNum) :
    (s.enterS t).csrRaw a =
      if a = Csr.sstatus then sstatusOnEntry (s.csrRaw Csr.sstatus) s.mode
      else if a = Csr.stval then 0 else if a = Csr.scause then t.cause
      else if a = Csr.sepc then s.trapEpc t else s.csrRaw a := by
  simp only [State.enterS, State.setPc_csrRaw, State.setMode_csrRaw, State.csrRaw_setCsr]

/-- The Machine CSRs after entry to Machine mode; every other CSR is unchanged. -/
theorem State.enterM_csrRaw (s : State) (t : Trap) (a : CsrNum) :
    (s.enterM t).csrRaw a =
      if a = Csr.mstatus then mstatusOnEntry (s.csrRaw Csr.mstatus) s.mode
      else if a = Csr.mtval then 0 else if a = Csr.mcause then t.cause
      else if a = Csr.mepc then s.trapEpc t else s.csrRaw a := by
  simp only [State.enterM, State.setPc_csrRaw, State.setMode_csrRaw, State.csrRaw_setCsr]

@[simp] theorem State.enterS_mode (s : State) (t : Trap) : (s.enterS t).mode = .supervisor := by simp [State.enterS]
@[simp] theorem State.enterM_mode (s : State) (t : Trap) : (s.enterM t).mode = .machine := by simp [State.enterM]
@[simp] theorem State.enterS_pc (s : State) (t : Trap) : (s.enterS t).pc = trapTarget (s.csrRaw Csr.stvec) t := by simp [State.enterS]
@[simp] theorem State.enterM_pc (s : State) (t : Trap) : (s.enterM t).pc = trapTarget (s.csrRaw Csr.mtvec) t := by simp [State.enterM]

/-- A trap that Supervisor mode handles. -/
theorem State.takeTrap_delegated {s : State} {t : Trap} (h : s.delegated t = true) :
    s.takeTrap t = (s.enterS t).setResv none := by
  simp [State.takeTrap, h]

/-- A trap that Machine mode handles. -/
theorem State.takeTrap_notDelegated {s : State} {t : Trap} (h : s.delegated t = false) :
    s.takeTrap t = (s.enterM t).setResv none := by
  simp [State.takeTrap, h]

theorem State.returnS_csrRaw (s : State) (a : CsrNum) :
    s.returnS.csrRaw a = if a = Csr.sstatus then sstatusOnReturn (s.csrRaw Csr.sstatus) else s.csrRaw a := by
  simp only [State.returnS, State.setPc_csrRaw, State.setMode_csrRaw, State.csrRaw_setCsr]

theorem State.returnM_csrRaw (s : State) (m : Mode) (a : CsrNum) :
    (s.returnM m).csrRaw a = if a = Csr.mstatus then mstatusOnReturn (s.csrRaw Csr.mstatus) else s.csrRaw a := by
  simp only [State.returnM, State.setPc_csrRaw, State.setMode_csrRaw, State.csrRaw_setCsr]

@[simp] theorem State.returnS_pc (s : State) : s.returnS.pc = s.csrRaw Csr.sepc := by simp [State.returnS]
@[simp] theorem State.returnS_mode (s : State) : s.returnS.mode = sretMode (s.csrRaw Csr.sstatus) := by simp [State.returnS]
@[simp] theorem State.returnM_pc (s : State) (m : Mode) : (s.returnM m).pc = s.csrRaw Csr.mepc := by simp [State.returnM]
@[simp] theorem State.returnM_mode (s : State) (m : Mode) : (s.returnM m).mode = m := by simp [State.returnM]

/-! ## Status words, bit by bit -/

theorem getLsbD_mstatusOnEntry (st : Word) (m : Mode) (i : Nat) (hi : i < 64) :
    (mstatusOnEntry st m).getLsbD i =
      if i = 12 then m.bits.getLsbD 1 else if i = 11 then m.bits.getLsbD 0
      else if i = 3 then false else if i = 7 then st.getLsbD 3 else st.getLsbD i := by
  simp only [mstatusOnEntry, getLsbD_setMpp _ _ _ hi, getLsbD_setBit _ _ _ _ hi, mieBit]

theorem getLsbD_sstatusOnEntry (st : Word) (m : Mode) (i : Nat) (hi : i < 64) :
    (sstatusOnEntry st m).getLsbD i =
      if i = 8 then (m == .supervisor) else if i = 1 then false else if i = 5 then st.getLsbD 1 else st.getLsbD i := by
  simp only [sstatusOnEntry, getLsbD_setBit _ _ _ _ hi, sieBit]

theorem getLsbD_mstatusOnReturn (st : Word) (i : Nat) (hi : i < 64) :
    (mstatusOnReturn st).getLsbD i =
      if i = 12 then false else if i = 11 then false
      else if i = 7 then true else if i = 3 then st.getLsbD 7 else st.getLsbD i := by
  simp [mstatusOnReturn, getLsbD_setMpp _ _ _ hi, getLsbD_setBit _ _ _ _ hi, mpieBit]

theorem getLsbD_sstatusOnReturn (st : Word) (i : Nat) (hi : i < 64) :
    (sstatusOnReturn st).getLsbD i =
      if i = 8 then false else if i = 5 then true else if i = 1 then st.getLsbD 5 else st.getLsbD i := by
  simp only [sstatusOnReturn, getLsbD_setBit _ _ _ _ hi, spieBit]

/-! ## CSR writes -/

theorem State.csrWrite_sie (s : State) (v : Word) :
    s.csrWrite Csr.sie v =
      s.setCsr Csr.mie ((s.csrRaw Csr.mie &&& ~~~s.csrRaw Csr.mideleg) ||| (v &&& s.csrRaw Csr.mideleg)) := rfl

theorem State.csrWrite_satp (s : State) (v : Word) :
    s.csrWrite Csr.satp v = (s.setCsr Csr.satp v).setPaging (satpPaging v) (satpRoot s.cfg v) := rfl

theorem State.csrWrite_of_ne {a : CsrNum} (h1 : a ≠ Csr.sie) (h2 : a ≠ Csr.satp) (s : State) (v : Word) :
    s.csrWrite a v = s.setCsr a v := by
  simp [State.csrWrite, h1, h2]

@[simp] theorem State.csrWrite_cfg (s : State) (a : CsrNum) (v : Word) : (s.csrWrite a v).cfg = s.cfg := by
  unfold State.csrWrite; split <;> [simp; split <;> simp]
@[simp] theorem State.csrWrite_x (s : State) (a : CsrNum) (v : Word) : (s.csrWrite a v).x = s.x := by
  unfold State.csrWrite; split <;> [simp; split <;> simp]
@[simp] theorem State.csrWrite_written (s : State) (a : CsrNum) (v : Word) : (s.csrWrite a v).written = s.written := by
  unfold State.csrWrite; split <;> [simp; split <;> simp]
@[simp] theorem State.csrWrite_pc (s : State) (a : CsrNum) (v : Word) : (s.csrWrite a v).pc = s.pc := by
  unfold State.csrWrite; split <;> [simp; split <;> simp]
@[simp] theorem State.csrWrite_mode (s : State) (a : CsrNum) (v : Word) : (s.csrWrite a v).mode = s.mode := by
  unfold State.csrWrite; split <;> [simp; split <;> simp]
@[simp] theorem State.csrWrite_resv (s : State) (a : CsrNum) (v : Word) : (s.csrWrite a v).resv = s.resv := by
  unfold State.csrWrite; split <;> [simp; split <;> simp]
@[simp] theorem State.csrWrite_halted (s : State) (a : CsrNum) (v : Word) : (s.csrWrite a v).halted = s.halted := by
  unfold State.csrWrite; split <;> [simp; split <;> simp]
@[simp] theorem State.csrWrite_mem (s : State) (a : CsrNum) (v : Word) : (s.csrWrite a v).mem = s.mem := by
  unfold State.csrWrite; split <;> [simp; split <;> simp]
@[simp] theorem State.csrWrite_clint (s : State) (a : CsrNum) (v : Word) : (s.csrWrite a v).clint = s.clint := by
  unfold State.csrWrite; split <;> [simp; split <;> simp]
@[simp] theorem State.csrWrite_plic (s : State) (a : CsrNum) (v : Word) : (s.csrWrite a v).plic = s.plic := by
  unfold State.csrWrite; split <;> [simp; split <;> simp]
@[simp] theorem State.csrWrite_uart (s : State) (a : CsrNum) (v : Word) : (s.csrWrite a v).uart = s.uart := by
  unfold State.csrWrite; split <;> [simp; split <;> simp]
@[simp] theorem State.csrWrite_virtio (s : State) (a : CsrNum) (v : Word) : (s.csrWrite a v).virtio = s.virtio := by
  unfold State.csrWrite; split <;> [simp; split <;> simp]
@[simp] theorem State.csrWrite_disk (s : State) (a : CsrNum) (v : Word) : (s.csrWrite a v).disk = s.disk := by
  unfold State.csrWrite; split <;> [simp; split <;> simp]
@[simp] theorem State.csrWrite_out (s : State) (a : CsrNum) (v : Word) : (s.csrWrite a v).out = s.out := by
  unfold State.csrWrite; split <;> [simp; split <;> simp]
@[simp] theorem State.csrWrite_input (s : State) (a : CsrNum) (v : Word) : (s.csrWrite a v).input = s.input := by
  unfold State.csrWrite; split <;> [simp; split <;> simp]
@[simp] theorem State.csrWrite_reg (s : State) (a : CsrNum) (v : Word) (r : RegIdx) : (s.csrWrite a v).reg r = s.reg r := by
  simp [State.reg]
@[simp] theorem State.csrWrite_isWritten (s : State) (a : CsrNum) (v : Word) (r : RegIdx) :
    (s.csrWrite a v).isWritten r = s.isWritten r := by
  simp [State.isWritten]
@[simp] theorem State.csrWrite_byte (s : State) (a : CsrNum) (v : Word) (k : Nat) : (s.csrWrite a v).byte k = s.byte k := by
  simp [State.byte]

end Sys2Proof.Machine
end

