-- ==== Sys2Proof/Laws/Exec.lean ====
section
/-! SUPPORT. For each template an instruction is written over, everything it can answer. -/

namespace Sys2Proof.Machine

theorem writeResult_eq (rd : RegIdx) (v : Word) (s : State) : writeResult rd v s = .next (s.setReg rd v) := rfl

theorem writeWord_eq (rd : RegIdx) (r : BitVec 32) (s : State) :
    writeWord rd r s = .next (s.setReg rd (r.signExtend 64)) := rfl

theorem raise_eq {e : Exc} {s t : State} (h : raise e s = .next t) : t = s.deliver e := by
  unfold raise at h
  injection h with h
  exact h.symm

theorem next_inj {s t : State} (h : (Host.Outcome.next s : Result) = .next t) : t = s := by
  injection h with h
  exact h.symm

/-- A jump: to an aligned target with the link written, or the misaligned-address exception. -/
theorem jumpAndLink_cases {rd : RegIdx} {a : Word} {s t : State} (h : jumpAndLink rd a s = .next t) :
    (targetAligned a = true ∧ t = (s.setPc a).setReg rd s.pc) ∨
    (targetAligned a = false ∧ t = s.deliver .instructionAddressMisaligned) := by
  unfold jumpAndLink raise at h
  split at h <;> cases h <;> simp_all

/-- A branch: not taken, taken to an aligned target, or the misaligned-address exception. -/
theorem branchIf_cases {c : Bool} {off : BitVec 13} {s t : State} (h : branchIf c off s = .next t) :
    (c = false ∧ t = s) ∨
    (c = true ∧ targetAligned (s.ipc + off.signExtend 64) = true ∧ t = s.setPc (s.ipc + off.signExtend 64)) ∨
    (c = true ∧ targetAligned (s.ipc + off.signExtend 64) = false ∧ t = s.deliver .instructionAddressMisaligned) := by
  unfold branchIf raise at h
  split at h
  · split at h <;> cases h <;> simp_all
  · cases h; simp_all

/-- A load: translated, read and extended, or an exception of kind load. -/
theorem loadInto_cases {n : Width} {f : Word → Word} {rd rs1 : RegIdx} {imm : BitVec 12} {s t : State}
    (h : loadInto n f rd rs1 imm s = .next t) :
    (∃ pa v s', translate s (s.ea rs1 imm) .load = .ok pa ∧ busLoad s pa n .load = .ok (v, s') ∧
      t = s'.setReg rd (f v)) ∨
    (∃ e, (e = .loadPageFault ∨ e = .loadAccessFault) ∧ t = s.deliver e) := by
  unfold loadInto raise at h
  split at h
  · rename_i e he
    cases h; exact .inr ⟨e, translate_error he, rfl⟩
  · rename_i pa hp
    split at h
    · rename_i e he
      cases h; exact .inr ⟨e, .inr (busLoad_error he), rfl⟩
    · rename_i v s' hb
      cases h; exact .inl ⟨pa, v, s', hp, hb, rfl⟩

/-- A store: translated and written, or an exception of kind store. -/
theorem storeFrom_cases {n : Width} {rs1 rs2 : RegIdx} {imm : BitVec 12} {s t : State}
    (h : storeFrom n rs1 rs2 imm s = .next t) :
    (∃ pa, translate s (s.ea rs1 imm) .store = .ok pa ∧ busStore s pa n (s.reg rs2) .store = .ok t) ∨
    (∃ e, (e = .storeAmoPageFault ∨ e = .storeAmoAccessFault) ∧ t = s.deliver e) := by
  unfold storeFrom raise at h
  split at h
  · rename_i e he
    cases h; exact .inr ⟨e, translate_error he, rfl⟩
  · rename_i pa hp
    split at h
    · rename_i e he
      cases h; exact .inr ⟨e, .inr (busStore_error he), rfl⟩
    · rename_i s' hb
      cases h; exact .inl ⟨pa, hp, hb⟩

/-- A load-reserved: it changes the reservation and the register, or raises. -/
theorem loadReserved_cases {n : Width} (hn : n ≠ .byte) {rd rs1 : RegIdx} {s t : State}
    (h : loadReserved n rd rs1 s = .next t) :
    (∃ pa v, alignedTo n (s.reg rs1) = true ∧ translate s (s.reg rs1) .load = .ok pa ∧
      busLoad s pa n .load = .ok (v, s) ∧ t = (s.setResv (some pa)).setReg rd (signExtendFrom n v)) ∨
    (∃ e, t = s.deliver e) := by
  unfold loadReserved raise at h
  split at h
  · rename_i ha
    split at h
    · cases h; exact .inr ⟨_, rfl⟩
    · rename_i pa hp
      split at h
      · cases h; exact .inr ⟨_, rfl⟩
      · rename_i v s' hb
        obtain rfl := busLoad_wide hb hn
        cases h; exact .inl ⟨pa, v, ha, hp, hb, rfl⟩
  · cases h; exact .inr ⟨_, rfl⟩

/-- A store-conditional: a success stores, a failure does not, both clear the reservation, or it raises. -/
theorem storeConditional_cases {n : Width} {rd rs1 rs2 : RegIdx} {s t : State}
    (h : storeConditional n rd rs1 rs2 s = .next t) :
    (∃ pa s', translate s (s.reg rs1) .store = .ok pa ∧ s.resv = some pa ∧
      busStore s pa n (s.reg rs2) .store = .ok s' ∧ t = (s'.setResv none).setReg rd 0) ∨
    (∃ pa, translate s (s.reg rs1) .store = .ok pa ∧ s.resv ≠ some pa ∧ t = (s.setResv none).setReg rd 1) ∨
    (∃ e, t = s.deliver e) := by
  unfold storeConditional raise at h
  split at h
  · split at h
    · cases h; exact .inr (.inr ⟨_, rfl⟩)
    · rename_i pa hp
      split at h
      · rename_i hr
        split at h
        · cases h; exact .inr (.inr ⟨_, rfl⟩)
        · rename_i s' hb
          cases h; exact .inl ⟨pa, s', hp, hr, hb, rfl⟩
      · rename_i hr
        cases h; exact .inr (.inl ⟨pa, hp, hr, rfl⟩)
  · cases h; exact .inr (.inr ⟨_, rfl⟩)

/-- An AMO: one read and one write of the same address, or it raises. -/
theorem readModifyWrite_cases {n : Width} (hn : n ≠ .byte) {op : Word → Word → Word} {rd rs1 rs2 : RegIdx} {s t : State}
    (h : readModifyWrite n op rd rs1 rs2 s = .next t) :
    (∃ pa v s', translate s (s.reg rs1) .store = .ok pa ∧ busLoad s pa n .store = .ok (v, s) ∧
      busStore s pa n (op v (s.reg rs2)) .store = .ok s' ∧ t = s'.setReg rd (signExtendFrom n v)) ∨
    (∃ e, t = s.deliver e) := by
  unfold readModifyWrite raise at h
  split at h
  · split at h
    · cases h; exact .inr ⟨_, rfl⟩
    · rename_i pa hp
      split at h
      · cases h; exact .inr ⟨_, rfl⟩
      · rename_i v s' hb
        obtain rfl := busLoad_wide hb hn
        split at h
        · cases h; exact .inr ⟨_, rfl⟩
        · rename_i s'' hs
          cases h; exact .inl ⟨pa, v, s'', hp, hb, hs, rfl⟩
  · cases h; exact .inr ⟨_, rfl⟩

/-- A CSR instruction: the CSR, then the register with the CSR's prior value. -/
theorem readModifyCsr_eq (rd : RegIdx) (a : CsrNum) (new : Word → Word) (s : State) :
    readModifyCsr rd a new s = .next ((s.csrWrite a (new (s.csrRead a))).setReg rd (s.csrRead a)) := rfl

theorem execMret_cases {s t : State} (h : execMret s = .next t) :
    ∃ m, Mode.ofBits (mppBits (s.csrRaw Csr.mstatus)) = some m ∧ t = s.returnM m := by
  unfold execMret at h
  split at h
  · rename_i m hm
    cases h; exact ⟨m, hm, rfl⟩
  · cases h

/-! ## A predicate that every update keeps -/

/-- `P` survives every elementary update the machine makes. -/
structure KeptByUpdates (P : State → Prop) : Prop where
  setReg    : ∀ {s} r v, P s → P (s.setReg r v)
  setPc     : ∀ {s} v, P s → P (s.setPc v)
  setMode   : ∀ {s} m, P s → P (s.setMode m)
  setResv   : ∀ {s} r, P s → P (s.setResv r)
  setHalted : ∀ {s} b, P s → P (s.setHalted b)
  setPlic   : ∀ {s} p, P s → P (s.setPlic p)
  setVirtio : ∀ {s} v, P s → P (s.setVirtio v)
  setInput  : ∀ {s} i, P s → P (s.setInput i)
  /-- the console's bytes change one at a time, and its flag -/
  setUart   : ∀ {s : State} off b, P s → P (s.setUart (s.uart.setReg off b))
  setIntr   : ∀ {s : State} b, P s → P (s.setUart { s.uart with intr := b })
  store     : ∀ {s t} pa n v k, P s → busStore s pa n v k = .ok t → P t
  csrWrite  : ∀ {s} a v, P s → P (s.csrWrite a v)
  setCsr    : ∀ {s} a v, a ≠ Csr.sie → a ≠ Csr.satp → P s → P (s.setCsr a v)
  /-- the disk's bytes change one at a time, inside the disk -/
  setDisk   : ∀ {s : State} off b, off < s.cfg.diskSize → P s → P (s.setDisk (Memory.write s.disk off b))

namespace KeptByUpdates

variable {P : State → Prop} (H : KeptByUpdates P)

include H

theorem load {s s' : State} {pa v : Word} {n : Width} {k : AccessKind} (hp : P s)
    (h : busLoad s pa n k = .ok (v, s')) : P s' := by
  rcases busLoad_ok h with rfl | ⟨-, -, rfl⟩
  · exact hp
  · exact H.setUart _ _ hp

theorem takeTrap {s : State} (hp : P s) (t : Trap) : P (s.takeTrap t) := by
  unfold State.takeTrap
  split
  · exact H.setResv _ (H.setPc _ (H.setMode _ (H.setCsr _ _ (by decide) (by decide) (H.setCsr _ _ (by decide) (by decide)
      (H.setCsr _ _ (by decide) (by decide) (H.setCsr _ _ (by decide) (by decide) hp))))))
  · exact H.setResv _ (H.setPc _ (H.setMode _ (H.setCsr _ _ (by decide) (by decide) (H.setCsr _ _ (by decide) (by decide)
      (H.setCsr _ _ (by decide) (by decide) (H.setCsr _ _ (by decide) (by decide) hp))))))

theorem deliver {s : State} (hp : P s) (e : Exc) : P (s.deliver e) := by
  unfold State.deliver
  split
  · exact H.setHalted _ (H.takeTrap hp _)
  · exact H.takeTrap hp _

theorem returnS {s : State} (hp : P s) : P s.returnS :=
  H.setPc _ (H.setMode _ (H.setCsr _ _ (by decide) (by decide) hp))

theorem returnM {s : State} (hp : P s) (m : Mode) : P (s.returnM m) :=
  H.setPc _ (H.setMode _ (H.setCsr _ _ (by decide) (by decide) hp))

theorem jumpAndLink {rd : RegIdx} {a : Word} {s t : State} (hp : P s) (h : jumpAndLink rd a s = .next t) : P t := by
  rcases jumpAndLink_cases h with ⟨-, rfl⟩ | ⟨-, rfl⟩
  · exact H.setReg _ _ (H.setPc _ hp)
  · exact H.deliver hp _

theorem branchIf {c : Bool} {off : BitVec 13} {s t : State} (hp : P s) (h : branchIf c off s = .next t) : P t := by
  rcases branchIf_cases h with ⟨-, rfl⟩ | ⟨-, -, rfl⟩ | ⟨-, -, rfl⟩
  · exact hp
  · exact H.setPc _ hp
  · exact H.deliver hp _

theorem loadInto {n : Width} {f : Word → Word} {rd rs1 : RegIdx} {imm : BitVec 12} {s t : State} (hp : P s)
    (h : loadInto n f rd rs1 imm s = .next t) : P t := by
  rcases loadInto_cases h with ⟨_, _, _, -, hb, rfl⟩ | ⟨_, -, rfl⟩
  · exact H.setReg _ _ (H.load hp hb)
  · exact H.deliver hp _

theorem storeFrom {n : Width} {rs1 rs2 : RegIdx} {imm : BitVec 12} {s t : State} (hp : P s)
    (h : storeFrom n rs1 rs2 imm s = .next t) : P t := by
  rcases storeFrom_cases h with ⟨_, -, hb⟩ | ⟨_, -, rfl⟩
  · exact H.store _ _ _ _ hp hb
  · exact H.deliver hp _

theorem loadReserved {n : Width} (hn : n ≠ .byte) {rd rs1 : RegIdx} {s t : State} (hp : P s)
    (h : loadReserved n rd rs1 s = .next t) : P t := by
  rcases loadReserved_cases hn h with ⟨_, _, -, -, -, rfl⟩ | ⟨_, rfl⟩
  · exact H.setReg _ _ (H.setResv _ hp)
  · exact H.deliver hp _

theorem storeConditional {n : Width} {rd rs1 rs2 : RegIdx} {s t : State} (hp : P s)
    (h : storeConditional n rd rs1 rs2 s = .next t) : P t := by
  rcases storeConditional_cases h with ⟨_, _, -, -, hb, rfl⟩ | ⟨_, -, -, rfl⟩ | ⟨_, rfl⟩
  · exact H.setReg _ _ (H.setResv _ (H.store _ _ _ _ hp hb))
  · exact H.setReg _ _ (H.setResv _ hp)
  · exact H.deliver hp _

theorem readModifyWrite {n : Width} (hn : n ≠ .byte) {op : Word → Word → Word} {rd rs1 rs2 : RegIdx} {s t : State}
    (hp : P s) (h : readModifyWrite n op rd rs1 rs2 s = .next t) : P t := by
  rcases readModifyWrite_cases hn h with ⟨_, _, _, -, -, hb, rfl⟩ | ⟨_, rfl⟩
  · exact H.setReg _ _ (H.store _ _ _ _ hp hb)
  · exact H.deliver hp _

theorem readModifyCsr {rd : RegIdx} {a : CsrNum} {new : Word → Word} {s t : State} (hp : P s)
    (h : readModifyCsr rd a new s = .next t) : P t := by
  rw [next_inj h]
  exact H.setReg _ _ (H.csrWrite _ _ hp)

theorem writeResult {rd : RegIdx} {v : Word} {s t : State} (hp : P s) (h : writeResult rd v s = .next t) : P t := by
  rw [next_inj h]
  exact H.setReg _ _ hp

theorem writeWord {rd : RegIdx} {r : BitVec 32} {s t : State} (hp : P s) (h : writeWord rd r s = .next t) : P t :=
  H.writeResult hp h

/-- Every instruction keeps `P`. -/
theorem exec {i : Instr} {s t : State} (hp : P s) (h : exec i s = .next t) : P t := by
  cases i
  case lui => simp only [Machine.exec, execLui] at h; rw [next_inj h]; exact H.setReg _ _ hp
  case auipc => simp only [Machine.exec, execAuipc] at h; rw [next_inj h]; exact H.setReg _ _ hp
  case jal => simp only [Machine.exec, execJal] at h; exact H.jumpAndLink hp h
  case jalr => simp only [Machine.exec, execJalr] at h; exact H.jumpAndLink hp h
  case beq => simp only [Machine.exec, execBeq] at h; exact H.branchIf hp h
  case bne => simp only [Machine.exec, execBne] at h; exact H.branchIf hp h
  case blt => simp only [Machine.exec, execBlt] at h; exact H.branchIf hp h
  case bge => simp only [Machine.exec, execBge] at h; exact H.branchIf hp h
  case bltu => simp only [Machine.exec, execBltu] at h; exact H.branchIf hp h
  case bgeu => simp only [Machine.exec, execBgeu] at h; exact H.branchIf hp h
  case lb => simp only [Machine.exec, execLb] at h; exact H.loadInto hp h
  case lh => simp only [Machine.exec, execLh] at h; exact H.loadInto hp h
  case lw => simp only [Machine.exec, execLw] at h; exact H.loadInto hp h
  case ld => simp only [Machine.exec, execLd] at h; exact H.loadInto hp h
  case lbu => simp only [Machine.exec, execLbu] at h; exact H.loadInto hp h
  case lhu => simp only [Machine.exec, execLhu] at h; exact H.loadInto hp h
  case lwu => simp only [Machine.exec, execLwu] at h; exact H.loadInto hp h
  case sb => simp only [Machine.exec, execSb] at h; exact H.storeFrom hp h
  case sh => simp only [Machine.exec, execSh] at h; exact H.storeFrom hp h
  case sw => simp only [Machine.exec, execSw] at h; exact H.storeFrom hp h
  case sd => simp only [Machine.exec, execSd] at h; exact H.storeFrom hp h
  case addi => simp only [Machine.exec, execAddi] at h; exact H.writeResult hp h
  case slti => simp only [Machine.exec, execSlti] at h; exact H.writeResult hp h
  case sltiu => simp only [Machine.exec, execSltiu] at h; exact H.writeResult hp h
  case xori => simp only [Machine.exec, execXori] at h; exact H.writeResult hp h
  case ori => simp only [Machine.exec, execOri] at h; exact H.writeResult hp h
  case andi => simp only [Machine.exec, execAndi] at h; exact H.writeResult hp h
  case slli => simp only [Machine.exec, execSlli] at h; exact H.writeResult hp h
  case srli => simp only [Machine.exec, execSrli] at h; exact H.writeResult hp h
  case srai => simp only [Machine.exec, execSrai] at h; exact H.writeResult hp h
  case add => simp only [Machine.exec, execAdd] at h; exact H.writeResult hp h
  case sub => simp only [Machine.exec, execSub] at h; exact H.writeResult hp h
  case sll => simp only [Machine.exec, execSll] at h; exact H.writeResult hp h
  case slt => simp only [Machine.exec, execSlt] at h; exact H.writeResult hp h
  case sltu => simp only [Machine.exec, execSltu] at h; exact H.writeResult hp h
  case xor => simp only [Machine.exec, execXor] at h; exact H.writeResult hp h
  case srl => simp only [Machine.exec, execSrl] at h; exact H.writeResult hp h
  case sra => simp only [Machine.exec, execSra] at h; exact H.writeResult hp h
  case or => simp only [Machine.exec, execOr] at h; exact H.writeResult hp h
  case and => simp only [Machine.exec, execAnd] at h; exact H.writeResult hp h
  case mul => simp only [Machine.exec, execMul] at h; exact H.writeResult hp h
  case mulh => simp only [Machine.exec, execMulh] at h; exact H.writeResult hp h
  case mulhsu => simp only [Machine.exec, execMulhsu] at h; exact H.writeResult hp h
  case mulhu => simp only [Machine.exec, execMulhu] at h; exact H.writeResult hp h
  case div => simp only [Machine.exec, execDiv] at h; exact H.writeResult hp h
  case divu => simp only [Machine.exec, execDivu] at h; exact H.writeResult hp h
  case rem => simp only [Machine.exec, execRem] at h; exact H.writeResult hp h
  case remu => simp only [Machine.exec, execRemu] at h; exact H.writeResult hp h
  case addiw => simp only [Machine.exec, execAddiw] at h; exact H.writeWord hp h
  case slliw => simp only [Machine.exec, execSlliw] at h; exact H.writeWord hp h
  case srliw => simp only [Machine.exec, execSrliw] at h; exact H.writeWord hp h
  case sraiw => simp only [Machine.exec, execSraiw] at h; exact H.writeWord hp h
  case addw => simp only [Machine.exec, execAddw] at h; exact H.writeWord hp h
  case subw => simp only [Machine.exec, execSubw] at h; exact H.writeWord hp h
  case sllw => simp only [Machine.exec, execSllw] at h; exact H.writeWord hp h
  case srlw => simp only [Machine.exec, execSrlw] at h; exact H.writeWord hp h
  case sraw => simp only [Machine.exec, execSraw] at h; exact H.writeWord hp h
  case mulw => simp only [Machine.exec, execMulw] at h; exact H.writeWord hp h
  case divw => simp only [Machine.exec, execDivw] at h; exact H.writeWord hp h
  case divuw => simp only [Machine.exec, execDivuw] at h; exact H.writeWord hp h
  case remw => simp only [Machine.exec, execRemw] at h; exact H.writeWord hp h
  case remuw => simp only [Machine.exec, execRemuw] at h; exact H.writeWord hp h
  case fence => simp only [Machine.exec, execFence] at h; rw [next_inj h]; exact hp
  case fenceI => simp only [Machine.exec, execFenceI] at h; rw [next_inj h]; exact hp
  case wfi => simp only [Machine.exec, execWfi] at h; rw [next_inj h]; exact hp
  case sfenceVma => simp only [Machine.exec, execSfenceVma] at h; rw [next_inj h]; exact hp
  case ecall => simp only [Machine.exec, execEcall] at h; rw [raise_eq h]; exact H.deliver hp _
  case ebreak => simp only [Machine.exec, execEbreak] at h; rw [raise_eq h]; exact H.deliver hp _
  case sret => simp only [Machine.exec, execSret] at h; rw [next_inj h]; exact H.returnS hp
  case mret =>
    obtain ⟨_, -, rfl⟩ := execMret_cases h
    exact H.returnM hp _
  case csrrw => simp only [Machine.exec, execCsrrw] at h; exact H.readModifyCsr hp h
  case csrrs => simp only [Machine.exec, execCsrrs] at h; exact H.readModifyCsr hp h
  case csrrc => simp only [Machine.exec, execCsrrc] at h; exact H.readModifyCsr hp h
  case csrrwi => simp only [Machine.exec, execCsrrwi] at h; exact H.readModifyCsr hp h
  case csrrsi => simp only [Machine.exec, execCsrrsi] at h; exact H.readModifyCsr hp h
  case csrrci => simp only [Machine.exec, execCsrrci] at h; exact H.readModifyCsr hp h
  case lrW => simp only [Machine.exec, execLrW] at h; exact H.loadReserved (by decide) hp h
  case lrD => simp only [Machine.exec, execLrD] at h; exact H.loadReserved (by decide) hp h
  case scW => simp only [Machine.exec, execScW] at h; exact H.storeConditional hp h
  case scD => simp only [Machine.exec, execScD] at h; exact H.storeConditional hp h
  case amoswapW => simp only [Machine.exec, execAmoswapW] at h; exact H.readModifyWrite (by decide) hp h
  case amoaddW => simp only [Machine.exec, execAmoaddW] at h; exact H.readModifyWrite (by decide) hp h
  case amoxorW => simp only [Machine.exec, execAmoxorW] at h; exact H.readModifyWrite (by decide) hp h
  case amoandW => simp only [Machine.exec, execAmoandW] at h; exact H.readModifyWrite (by decide) hp h
  case amoorW => simp only [Machine.exec, execAmoorW] at h; exact H.readModifyWrite (by decide) hp h
  case amominW => simp only [Machine.exec, execAmominW] at h; exact H.readModifyWrite (by decide) hp h
  case amomaxW => simp only [Machine.exec, execAmomaxW] at h; exact H.readModifyWrite (by decide) hp h
  case amominuW => simp only [Machine.exec, execAmominuW] at h; exact H.readModifyWrite (by decide) hp h
  case amomaxuW => simp only [Machine.exec, execAmomaxuW] at h; exact H.readModifyWrite (by decide) hp h
  case amoswapD => simp only [Machine.exec, execAmoswapD] at h; exact H.readModifyWrite (by decide) hp h
  case amoaddD => simp only [Machine.exec, execAmoaddD] at h; exact H.readModifyWrite (by decide) hp h
  case amoxorD => simp only [Machine.exec, execAmoxorD] at h; exact H.readModifyWrite (by decide) hp h
  case amoandD => simp only [Machine.exec, execAmoandD] at h; exact H.readModifyWrite (by decide) hp h
  case amoorD => simp only [Machine.exec, execAmoorD] at h; exact H.readModifyWrite (by decide) hp h
  case amominD => simp only [Machine.exec, execAmominD] at h; exact H.readModifyWrite (by decide) hp h
  case amomaxD => simp only [Machine.exec, execAmomaxD] at h; exact H.readModifyWrite (by decide) hp h
  case amominuD => simp only [Machine.exec, execAmominuD] at h; exact H.readModifyWrite (by decide) hp h
  case amomaxuD => simp only [Machine.exec, execAmomaxuD] at h; exact H.readModifyWrite (by decide) hp h

end KeptByUpdates

end Sys2Proof.Machine
end

