-- ==== Sys2Proof/Laws/Step.lean ====
section
/-! SUPPORT. What the device poll, the interrupt check, the two phases and a step can do, and that a predicate which every
update keeps is kept by every step. -/

namespace Sys2Proof.Machine

/-! ## The block device -/

theorem dmaLoad_ok {s s' : State} {pa v : Word} {n : Width} (h : dmaLoad s pa n = .ok (v, s')) :
    busLoad s pa n .load = .ok (v, s') := by
  unfold dmaLoad at h
  split at h
  · rename_i r hr
    cases h; exact hr
  · cases h

theorem dmaLoad_error {s : State} {pa : Word} {n : Width} {f : Fault} (h : dmaLoad s pa n = .error f) :
    f = .virtioBus s := by
  unfold dmaLoad at h
  split at h
  · cases h
  · cases h; rfl

theorem dmaStore_ok {s t : State} {pa v : Word} {n : Width} (h : dmaStore s pa n v = .ok t) :
    busStore s pa n v .store = .ok t := by
  unfold dmaStore at h
  split at h
  · rename_i r hr
    cases h; exact hr
  · cases h

theorem dmaStore_error {s : State} {pa v : Word} {n : Width} {f : Fault} (h : dmaStore s pa n v = .error f) :
    f = .virtioBus s := by
  unfold dmaStore at h
  split at h
  · cases h
  · cases h; rfl

/-- A read of two bytes or more gives a value and changes nothing, or is the bus fault. -/
theorem dmaLoad_cases (s : State) (pa : Word) {n : Width} (hn : n ≠ .byte) :
    dmaLoad s pa n = .error (.virtioBus s) ∨
      ∃ v, dmaLoad s pa n = .ok (v, s) ∧ busLoad s pa n .load = .ok (v, s) := by
  cases h : dmaLoad s pa n with
  | error f => rw [dmaLoad_error h]; exact .inl rfl
  | ok r =>
    obtain ⟨v, s'⟩ := r
    have hb := dmaLoad_ok h
    obtain rfl := busLoad_wide hb hn
    exact .inr ⟨v, rfl, hb⟩

/-- Reading a request: all eight reads give their values and change nothing, or it is the bus fault with nothing
changed. -/
theorem readRequest_cases (s : State) :
    readRequest s = .error (.virtioBus s) ∨
    ∃ idx head hdr nxt buf len flags sector,
      busLoad s (s.virtio.descTable + 0x80 + 2) .half .load = .ok (idx, s) ∧
      busLoad s (s.virtio.descTable + 0x80 + 4 + BitVec.ofNat 64 (2 * ((idx.toNat + 7) % 8))) .half .load = .ok (head, s) ∧
      busLoad s (s.virtio.descTable + 16 * head) .double .load = .ok (hdr, s) ∧
      busLoad s (s.virtio.descTable + 16 * head + 14) .half .load = .ok (nxt, s) ∧
      busLoad s (s.virtio.descTable + 16 * nxt) .double .load = .ok (buf, s) ∧
      busLoad s (s.virtio.descTable + 16 * nxt + 8) .word .load = .ok (len, s) ∧
      busLoad s (s.virtio.descTable + 16 * nxt + 12) .half .load = .ok (flags, s) ∧
      busLoad s (hdr + 8) .double .load = .ok (sector, s) ∧
      readRequest s =
        .ok ({ buf := buf, len := len.toNat, toDisk := !flags.getLsbD 1, sector := sector.toNat }, s) := by
  simp only [readRequest, bind, Except.bind, pure, Except.pure]
  rcases dmaLoad_cases s (s.virtio.descTable + 0x80 + 2) (n := .half) (by decide) with e | ⟨idx, e, h1⟩ <;> rw [e]
  · exact .inl rfl
  dsimp only
  rcases dmaLoad_cases s (s.virtio.descTable + 0x80 + 4 + BitVec.ofNat 64 (2 * ((idx.toNat + 7) % 8))) (n := .half)
    (by decide) with e | ⟨head, e, h2⟩ <;> rw [e]
  · exact .inl rfl
  dsimp only
  rcases dmaLoad_cases s (s.virtio.descTable + 16 * head) (n := .double) (by decide) with e | ⟨hdr, e, h3⟩ <;> rw [e]
  · exact .inl rfl
  dsimp only
  rcases dmaLoad_cases s (s.virtio.descTable + 16 * head + 14) (n := .half) (by decide) with e | ⟨nxt, e, h4⟩ <;> rw [e]
  · exact .inl rfl
  dsimp only
  rcases dmaLoad_cases s (s.virtio.descTable + 16 * nxt) (n := .double) (by decide) with e | ⟨buf, e, h5⟩ <;> rw [e]
  · exact .inl rfl
  dsimp only
  rcases dmaLoad_cases s (s.virtio.descTable + 16 * nxt + 8) (n := .word) (by decide) with e | ⟨len, e, h6⟩ <;> rw [e]
  · exact .inl rfl
  dsimp only
  rcases dmaLoad_cases s (s.virtio.descTable + 16 * nxt + 12) (n := .half) (by decide) with e | ⟨flags, e, h7⟩ <;> rw [e]
  · exact .inl rfl
  dsimp only
  rcases dmaLoad_cases s (hdr + 8) (n := .double) (by decide) with e | ⟨sector, e, h8⟩ <;> rw [e]
  · exact .inl rfl
  exact .inr ⟨idx, head, hdr, nxt, buf, len, flags, sector, h1, h2, h3, h4, h5, h6, h7, h8, rfl⟩

/-- The reads of a request change nothing. -/
theorem readRequest_ok {s s' : State} {r : DiskRequest} (h : readRequest s = .ok (r, s')) : s' = s := by
  rcases readRequest_cases s with e | ⟨_, _, _, _, _, _, _, _, -, -, -, -, -, -, -, -, e⟩ <;> rw [e] at h <;> cases h
  rfl

/-- One byte of a transfer: a byte of the disk, or one store to the guest. -/
theorem copyByte_ok {toDisk : Bool} {buf : Word} {off : Nat} {s t : State} (h : copyByte toDisk buf off s = .ok t) :
    (toDisk = true ∧ ∃ v s', busLoad s buf .byte .load = .ok (v, s') ∧
      t = s'.setDisk (Memory.write s'.disk off (v.setWidth 8))) ∨
    (toDisk = false ∧ busStore s buf .byte ((Memory.read s.disk off).setWidth 64) .store = .ok t) := by
  unfold copyByte at h
  split at h
  · rename_i hd
    split at h
    · cases h
    · rename_i v s' hv
      cases h; exact .inl ⟨hd, v, s', dmaLoad_ok hv, rfl⟩
  · rename_i hd
    exact .inr ⟨by simpa using hd, dmaStore_ok h⟩

theorem copyByte_cfg {toDisk : Bool} {buf : Word} {off : Nat} {s t : State} (h : copyByte toDisk buf off s = .ok t) :
    t.cfg = s.cfg := by
  rcases copyByte_ok h with ⟨-, v, s', hv, rfl⟩ | ⟨-, hs⟩
  · rw [State.setDisk_cfg, busLoad_cfg hv]
  · exact busStore_cfg hs

/-! ## A predicate that every update keeps -/

namespace KeptByUpdates

variable {P : State → Prop} (H : KeptByUpdates P)

include H

theorem copyByte {toDisk : Bool} {buf : Word} {off : Nat} {s t : State} (hp : P s) (ho : off < s.cfg.diskSize)
    (h : copyByte toDisk buf off s = .ok t) : P t := by
  rcases copyByte_ok h with ⟨-, v, s', hv, rfl⟩ | ⟨-, hs⟩
  · exact H.setDisk _ _ (by rwa [busLoad_cfg hv]) (H.load hp hv)
  · exact H.store _ _ _ _ hp hs

theorem copyBytes {toDisk : Bool} {buf : Word} {off len : Nat} {s t : State} (hp : P s)
    (ho : off + len ≤ s.cfg.diskSize) (h : copyBytes toDisk buf off len s = .ok t) : P t := by
  induction len generalizing buf off s with
  | zero => cases h; exact hp
  | succ n ih =>
    unfold Machine.copyBytes at h
    split at h
    · cases h
    · rename_i s' hs
      exact ih (H.copyByte hp (by omega) hs) (by rw [copyByte_cfg hs]; omega) h

theorem diskAccess {s t : State} (hp : P s) (h : diskAccess s = .ok t) : P t := by
  unfold Machine.diskAccess at h
  split at h
  · cases h
  · rename_i r s1 h1
    obtain rfl := readRequest_ok h1
    split at h
    · cases h
    · rename_i s2 h2
      unfold transfer at h2
      split at h2
      · cases h2
      · have hp2 := H.copyBytes hp (by omega) h2
        exact H.store _ _ _ _ (H.setVirtio _ hp2) (dmaStore_ok h)

theorem announce {s : State} (hp : P s) (irq : BitVec 32) : P (s.announce irq) := by
  unfold State.announce
  split
  · exact hp
  · exact H.setCsr _ _ (by decide) (by decide) (H.setPlic _ hp)

theorem pollDevices {s t : State} (hp : P s) (h : pollDevices s = .ok t) : P t := by
  unfold Machine.pollDevices at h
  split at h
  · cases h; exact H.announce (H.setIntr _ hp) _
  · split at h
    · split at h
      · cases h
      · rename_i s' hs
        cases h; exact H.announce (H.diskAccess (H.setVirtio _ hp) hs) _
    · cases h; exact hp

theorem selectAndDeliver {s : State} (hp : P s) : P (selectAndDeliver s) := by
  unfold Machine.selectAndDeliver
  split
  · exact H.takeTrap (H.setCsr _ _ (by decide) (by decide) hp) _
  · exact hp

theorem interruptCheck {s t : State} (hp : P s) (h : interruptCheck s = .next t) : P t := by
  unfold Machine.interruptCheck at h
  split at h
  · split at h
    · cases h
    · rename_i s' hs
      rw [next_inj h]; exact H.selectAndDeliver (H.pollDevices hp hs)
  · rw [next_inj h]; exact hp

theorem consoleSlot {s : State} (hp : P s) : P (consoleSlot s) := by
  unfold Machine.consoleSlot
  split
  · exact hp
  · exact H.setInput _ hp
  · split
    · exact hp
    · exact H.setInput _ (H.setIntr true (H.setUart 5 _ (H.setUart 0 _ hp)))

theorem phaseA {s t : State} (hp : P s) (h : phaseA s = .next t) : P t := by
  have ha : P s.advance := H.setPc _ hp
  unfold Machine.phaseA at h
  split at h
  · rw [raise_eq h]; exact H.deliver ha _
  · unfold executeWord at h
    split at h
    · rw [raise_eq h]; exact H.deliver ha _
    · split at h
      · exact H.exec ha h
      · cases h

theorem phaseB {s t : State} (hp : P s) (h : phaseB s = .next t) : P t := by
  unfold Machine.phaseB at h
  split at h
  · rw [next_inj h]; exact hp
  · exact H.interruptCheck (H.consoleSlot hp) h

/-- Every step keeps `P`. -/
theorem step {s t : State} (hp : P s) (h : step s = .next t) : P t := by
  unfold Machine.step at h
  split at h
  · split at h
    · cases h
    · unfold runStep at h
      split at h
      · rename_i s' hs
        exact H.phaseB (H.phaseA (H.consoleSlot hp) hs) h
      · cases h
      · cases h
  · cases h

end KeptByUpdates

/-! ## The shape of a step -/

/-- With no input waiting, the console slot does nothing. -/
@[simp] theorem consoleSlot_nil {s : State} (h : s.input = []) : consoleSlot s = s := by
  simp [consoleSlot, h]

/-- With the current mode's enable clear, the interrupt check does nothing. -/
theorem interruptCheck_disabled {s : State} (h : s.interruptEnable = false) : interruptCheck s = .next s := by
  simp [interruptCheck, h]

/-- The console slot touches nothing but the console and the schedule. -/
theorem consoleSlot_eq (s : State) : ∃ u i, consoleSlot s = (s.setUart u).setInput i := by
  unfold consoleSlot
  split
  · exact ⟨s.uart, s.input, rfl⟩
  · exact ⟨s.uart, _, rfl⟩
  · split
    · exact ⟨s.uart, s.input, rfl⟩
    · exact ⟨_, _, rfl⟩

theorem mieBit_mstatusOnEntry (st : Word) (m : Mode) : mieBit (mstatusOnEntry st m) = false := by
  rw [mieBit, getLsbD_mstatusOnEntry _ _ 3 (by decide)]; rfl

theorem sieBit_sstatusOnEntry (st : Word) (m : Mode) : sieBit (sstatusOnEntry st m) = false := by
  rw [sieBit, getLsbD_sstatusOnEntry _ _ 1 (by decide)]; rfl

/-- After a trap the global enable of the mode entered is clear. -/
theorem interruptEnable_takeTrap (s : State) (t : Trap) : (s.takeTrap t).interruptEnable = false := by
  cases h : s.delegated t
  · rw [State.takeTrap_notDelegated h]
    simp [State.interruptEnable, State.enterM_csrRaw, mieBit_mstatusOnEntry]
  · rw [State.takeTrap_delegated h]
    simp [State.interruptEnable, State.enterS_csrRaw, sieBit_sstatusOnEntry]

end Sys2Proof.Machine
end

