-- ==== Sys2Proof/Laws/Frames.lean ====
section
/-! SUPPORT. How the terms of Safety.lean relate to the operations: frames of one register write, the numbers of operands
and addresses, and stores into memory. -/

namespace Sys2Proof.Safety

open Sys2Proof.Machine

/-! ## Frames -/

theorem SameSystem.rfl' (s : State) : SameSystem s s := ⟨rfl, rfl, fun _ => rfl, rfl, rfl, rfl, rfl⟩

theorem SameDevices.rfl' (s : State) : SameDevices s s := ⟨rfl, rfl, rfl, rfl, fun _ => rfl, rfl⟩

theorem SameMemory.rfl' (s : State) : SameMemory s s := fun _ => rfl

theorem SameRegs.rfl' (s : State) : SameRegs s s := fun _ => ⟨rfl, rfl⟩

theorem sameRegsBut_setReg (s : State) (rd : RegIdx) (v : Word) : SameRegsBut rd s (s.setReg rd v) :=
  fun _ h => s.setReg_other h v

theorem sameSystem_setReg (s : State) (rd : RegIdx) (v : Word) : SameSystem s (s.setReg rd v) := by
  constructor <;> simp

theorem sameDevices_setReg (s : State) (rd : RegIdx) (v : Word) : SameDevices s (s.setReg rd v) := by
  constructor <;> simp

theorem sameMemory_setReg (s : State) (rd : RegIdx) (v : Word) : SameMemory s (s.setReg rd v) := by
  intro a; simp

/-- A register write changes nothing but the register. -/
theorem onlyReg_setReg (s : State) (rd : RegIdx) (v : Word) : OnlyReg rd s (s.setReg rd v) :=
  ⟨sameRegsBut_setReg s rd v, by simp, sameSystem_setReg s rd v, by simp, sameMemory_setReg s rd v,
    sameDevices_setReg s rd v⟩

theorem reg_setReg_self (s : State) (rd : RegIdx) (v : Word) : (s.setReg rd v).reg rd = written rd v := by
  by_cases h : rd = 0#5
  · simp [written, h]
  · simp [State.reg_setReg, written, h]

theorem isWritten_setReg_self (s : State) (rd : RegIdx) (v : Word) : (s.setReg rd v).isWritten rd = true := by
  simp [State.isWritten_setReg]

/-- An instruction that answers one register write computes the value written. -/
theorem computes_of_exec {i : Instr} {rd : RegIdx} {s : State} {v : Word} {P : Word → Prop}
    (h : exec i s = .next (s.setReg rd v)) (hv : P v) : Computes i rd s P :=
  ⟨_, v, h, hv, reg_setReg_self s rd v, isWritten_setReg_self s rd v, onlyReg_setReg s rd v⟩

/-! ## Numbers -/

theorem littleEndian_eq (s : State) (a n : Nat) : littleEndian s a n = Memory.number s.mem a n := by
  induction n generalizing a with
  | zero => rfl
  | succ n ih => simp [littleEndian, Memory.number, ih, State.byte]

theorem readLE_toNat_eq (s : State) (a : Nat) (n : Width) :
    (Memory.readLE s.mem a n.bytes).toNat = littleEndian s a n.bytes := by
  rw [littleEndian_eq, Memory.readLE_toNat _ _ _ n.bytes_le]

theorem littleEndian_lt (s : State) (a n : Nat) : littleEndian s a n < 256 ^ n := by
  rw [littleEndian_eq]; exact Memory.number_lt _ _ _

/-- The unsigned number of a wrapped integer. -/
theorem toNat_ofInt64 (i : Int) : ((BitVec.ofInt 64 i).toNat : Int) = i % 2 ^ 64 := by
  rw [BitVec.toNat_ofInt, Int.toNat_of_nonneg (Int.emod_nonneg _ (by decide))]
  rfl

theorem ofInt_toNat64 (w : Word) : BitVec.ofInt 64 w.toNat = w := by
  rw [BitVec.ofInt_natCast]; simp

/-- A wrapped sum with a sign-extended displacement, as a number. -/
theorem toNat_add_signExtend (a : Word) {w : Nat} (d : BitVec w) :
    ((a + d.signExtend 64).toNat : Int) = (a.toNat + d.toInt) % 2 ^ 64 := by
  rw [← toNat_ofInt64, BitVec.ofInt_add, ofInt_toNat64]
  rfl

/-- The address a load or a store computes. -/
theorem effectiveAddress_iff (s : State) (rs1 : RegIdx) (imm : BitVec 12) (va : Word) :
    EffectiveAddress s rs1 imm va ↔ va = s.ea rs1 imm := by
  have h : ((s.ea rs1 imm).toNat : Int) = ((s.reg rs1).toNat + imm.toInt) % 2 ^ 64 := toNat_add_signExtend _ _
  rw [EffectiveAddress, ← h, Nat.cast_inj, BitVec.toNat_inj]

/-- The instruction's own address, as a number. -/
theorem toNat_ipc_add (s : State) {w : Nat} (d : BitVec w) :
    ((s.ipc + d.signExtend 64).toNat : Int) = ((s.pc.toNat : Int) - 4 + d.toInt) % 2 ^ 64 := by
  have h : s.ipc = BitVec.ofInt 64 ((s.pc.toNat : Int) - 4) := by
    rw [Int.sub_eq_add_neg, BitVec.ofInt_add, ofInt_toNat64, State.ipc, BitVec.sub_eq_add_neg]
    rfl
  rw [← toNat_ofInt64, BitVec.ofInt_add, ← h]
  rfl

/-- The target of a pc-relative jump or branch. -/
theorem relativeTarget_iff {w : Nat} (s : State) (off : BitVec w) (target : Word) :
    RelativeTarget s off.toInt target ↔ target = s.ipc + off.signExtend 64 := by
  rw [RelativeTarget, ← toNat_ipc_add, Nat.cast_inj, BitVec.toNat_inj]

theorem targetAligned_iff (t : Word) : targetAligned t = true ↔ t.toNat % 4 = 0 := by
  unfold targetAligned
  rw [beq_iff_eq, ← BitVec.toNat_inj]
  simp

theorem alignedTo_iff (n : Width) (a : Word) : alignedTo n a = true ↔ a.toNat % n.bytes = 0 := by
  simp [alignedTo]

/-- A bit as a number. -/
theorem bit_eq_one_iff (w : Word) (k : Nat) : bit w k = 1 ↔ w.getLsbD k = true := by
  unfold bit
  rw [BitVec.getLsbD, Nat.testBit_eq_decide_div_mod_eq]
  simp

theorem bit_eq_zero_iff (w : Word) (k : Nat) : bit w k = 0 ↔ w.getLsbD k = false := by
  have h := bit_eq_one_iff w k
  have h2 : bit w k < 2 := Nat.mod_lt _ (by decide)
  cases hb : w.getLsbD k
  · simp [hb] at h; simp; omega
  · simp [hb] at h; simp; omega

/-! ## Memory -/

/-- A store of `n` bytes at `a`. -/
theorem storedAt_writeLE (s : State) (a n : Nat) (v : Word) :
    StoredAt s (s.setMem (Memory.writeLE s.mem a n v)) a n v := by
  intro q
  rw [State.byte_setMem, Memory.read_writeLE]
  rfl

/-! ## Loaded values -/

/-- The low bits of a word as a signed number. -/
theorem toInt_setWidth_signed {k : Nat} (x : Word) : (x.setWidth k).toInt = signed k x.toNat := by
  rw [BitVec.toInt_eq_toNat_bmod, BitVec.toNat_setWidth, signed, Int.natCast_emod]
  exact Int.emod_bmod _ _

/-- Sign-extension from `n` bytes, as a number. -/
theorem toInt_signExtendFrom (n : Width) (x : Word) : (signExtendFrom n x).toInt = signed (8 * n.bytes) x.toNat := by
  cases n <;> simp only [signExtendFrom, Width.bytes]
  · rw [BitVec.toInt_signExtend_of_le (by decide), toInt_setWidth_signed]
  · rw [BitVec.toInt_signExtend_of_le (by decide), toInt_setWidth_signed]
  · rw [BitVec.toInt_signExtend_of_le (by decide), toInt_setWidth_signed]
  · rw [BitVec.toInt_eq_toNat_bmod]; rfl

/-- Zero-extension from `n` bytes keeps a number of `n` bytes. -/
theorem toNat_zeroExtendFrom (n : Width) (x : Word) (h : x.toNat < 2 ^ (8 * n.bytes)) :
    (zeroExtendFrom n x).toNat = x.toNat := by
  have := x.isLt
  cases n <;> simp only [zeroExtendFrom, Width.bytes] at * <;> simp <;> omega

/-- What the bus gives fits the width of the access. -/
theorem busLoad_lt {s s' : State} {pa v : Word} {n : Width} {k : AccessKind} (h : busLoad s pa n k = .ok (v, s')) :
    v.toNat < 2 ^ (8 * n.bytes) := by
  have hv := v.isLt
  unfold busLoad at h
  split at h
  · cases h
  · split at h <;> cases h
    have := Memory.readLE_lt s.mem pa.toNat n.bytes n.bytes_le
    rw [pow_mul]; exact this
  all_goals (split at h <;> cases h; subst_vars; simp only [Width.bytes]; try (simp only [BitVec.toNat_setWidth]))
  · exact BitVec.isLt _
  · have := (Plic.load s.plic ‹_›).isLt; omega
  · have := (Uart.reg s.uart ‹_›).isLt; omega
  · have := (Virtio.load s.virtio ‹_›).isLt; omega

/-! ## Device windows -/

theorem contains_iff (w : Window) (a : Nat) : w.contains a = true ↔ InWindow w a := by
  rw [Window.contains, Bool.and_eq_true]; exact and_congr decide_eq_true_iff decide_eq_true_iff

/-- Disjoint windows share no address. -/
theorem not_inWindow_of_disjoint {w v : Window} (h : w.disjoint v = true) {a : Nat} (ha : InWindow w a) :
    ¬InWindow v a := by
  simp only [Window.disjoint, Bool.or_eq_true, decide_eq_true_eq] at h
  simp only [InWindow, Window.stop] at *
  omega

theorem regionOf_clint {c : Config} {pa : Nat} (h : InWindow c.clint pa) : regionOf c pa = .clint (pa - c.clint.base) := by
  simp [regionOf, (contains_iff _ _).mpr h]

theorem regionOf_plic {c : Config} (hc : c.admissible = true) {pa : Nat} (h : InWindow c.plic pa) :
    regionOf c pa = .plic (pa - c.plic.base) := by
  simp only [Config.admissible, Bool.and_eq_true] at hc
  have h1 := mt (contains_iff c.clint pa).mp (fun h2 => not_inWindow_of_disjoint hc.1.1.1.1.1.1.1.1.1.1 h2 h)
  simp [regionOf, (contains_iff _ _).mpr h, h1]

theorem regionOf_uart {c : Config} (hc : c.admissible = true) {pa : Nat} (h : InWindow c.uart pa) :
    regionOf c pa = .uart (pa - c.uart.base) := by
  simp only [Config.admissible, Bool.and_eq_true] at hc
  have h1 := mt (contains_iff c.clint pa).mp (fun h2 => not_inWindow_of_disjoint hc.1.1.1.1.1.1.1.1.1.2 h2 h)
  have h2 := mt (contains_iff c.plic pa).mp (fun h2 => not_inWindow_of_disjoint hc.1.1.1.1.1.1.1.2 h2 h)
  simp [regionOf, (contains_iff _ _).mpr h, h1, h2]

theorem regionOf_virtio {c : Config} (hc : c.admissible = true) {pa : Nat} (h : InWindow c.virtio pa) :
    regionOf c pa = .virtio (pa - c.virtio.base) := by
  simp only [Config.admissible, Bool.and_eq_true] at hc
  have h1 := mt (contains_iff c.clint pa).mp (fun h2 => not_inWindow_of_disjoint hc.1.1.1.1.1.1.1.1.2 h2 h)
  have h2 := mt (contains_iff c.plic pa).mp (fun h2 => not_inWindow_of_disjoint hc.1.1.1.1.1.1.2 h2 h)
  have h3 := mt (contains_iff c.uart pa).mp (fun h2 => not_inWindow_of_disjoint hc.1.1.1.1.1.2 h2 h)
  simp [regionOf, (contains_iff _ _).mpr h, h1, h2, h3]

/-- An offset of a window lies in it. -/
theorem inWindow_of_atOffset {w : Window} {off : Nat} {pa : Word} (h : AtOffset w off pa) :
    InWindow w pa.toNat ∧ pa.toNat - w.base = off := by
  simp [AtOffset, InWindow] at *; omega

end Sys2Proof.Safety
end

