-- ==== Sys2Proof/Laws/PerInstr.lean ====
section
/-! SUPPORT. One law for every instruction: the encoder writes the fixed bits of the instruction's row of the opcode table
(spec 30_encoding.md R183). -/

namespace Sys2Proof

theorem encR_fixed (f7 : BitVec 7) (rs2 rs1 : RegIdx) (f3 : BitVec 3) (rd : RegIdx) (op : BitVec 7) :
    encR f7 rs2 rs1 f3 rd op &&& 0xfe00707f#32 = encR f7 0 0 f3 0 op := by
  refine BitVec.eq_of_getLsbD_eq fun i hi => ?_
  simp only [encR, BitVec.getLsbD_and, BitVec.getLsbD_append]
  interval_cases i <;> simp [-BitVec.getLsbD_eq_getElem]

theorem encR_fixed12 (f7 : BitVec 7) (rs2 rs1 : RegIdx) (f3 : BitVec 3) (rd : RegIdx) (op : BitVec 7) :
    encR f7 rs2 rs1 f3 rd op &&& 0xfff0707f#32 = encR f7 rs2 0 f3 0 op := by
  refine BitVec.eq_of_getLsbD_eq fun i hi => ?_
  simp only [encR, BitVec.getLsbD_and, BitVec.getLsbD_append]
  interval_cases i <;> simp [-BitVec.getLsbD_eq_getElem]

theorem encI_fixed (imm : BitVec 12) (rs1 : RegIdx) (f3 : BitVec 3) (rd : RegIdx) (op : BitVec 7) :
    encI imm rs1 f3 rd op &&& 0x0000707f#32 = encI 0 0 f3 0 op := by
  refine BitVec.eq_of_getLsbD_eq fun i hi => ?_
  simp only [encI, BitVec.getLsbD_and, BitVec.getLsbD_append]
  interval_cases i <;> simp [-BitVec.getLsbD_eq_getElem]

theorem encS_fixed (imm : BitVec 12) (rs2 rs1 : RegIdx) (f3 : BitVec 3) (op : BitVec 7) :
    encS imm rs2 rs1 f3 op &&& 0x0000707f#32 = encS 0 0 0 f3 op := by
  refine BitVec.eq_of_getLsbD_eq fun i hi => ?_
  simp only [encS, BitVec.getLsbD_and, BitVec.getLsbD_append]
  interval_cases i <;> simp [-BitVec.getLsbD_eq_getElem]

theorem encB_fixed (off : BitVec 13) (rs2 rs1 : RegIdx) (f3 : BitVec 3) (op : BitVec 7) :
    encB off rs2 rs1 f3 op &&& 0x0000707f#32 = encB 0 0 0 f3 op := by
  refine BitVec.eq_of_getLsbD_eq fun i hi => ?_
  simp only [encB, BitVec.getLsbD_and, BitVec.getLsbD_append]
  interval_cases i <;> simp [-BitVec.getLsbD_eq_getElem]

theorem encU_fixed (imm : BitVec 20) (rd : RegIdx) (op : BitVec 7) :
    encU imm rd op &&& 0x0000007f#32 = encU 0 0 op := by
  refine BitVec.eq_of_getLsbD_eq fun i hi => ?_
  simp only [encU, BitVec.getLsbD_and, BitVec.getLsbD_append]
  interval_cases i <;> simp [-BitVec.getLsbD_eq_getElem]

theorem encJ_fixed (off : BitVec 21) (rd : RegIdx) (op : BitVec 7) :
    encJ off rd op &&& 0x0000007f#32 = encJ 0 0 op := by
  refine BitVec.eq_of_getLsbD_eq fun i hi => ?_
  simp only [encJ, BitVec.getLsbD_and, BitVec.getLsbD_append]
  interval_cases i <;> simp [-BitVec.getLsbD_eq_getElem]

theorem encSh6_fixed (f6 shamt : BitVec 6) (rs1 : RegIdx) (f3 : BitVec 3) (rd : RegIdx) (op : BitVec 7) :
    encSh6 f6 shamt rs1 f3 rd op &&& 0xfc00707f#32 = encSh6 f6 0 0 f3 0 op := by
  refine BitVec.eq_of_getLsbD_eq fun i hi => ?_
  simp only [encSh6, BitVec.getLsbD_and, BitVec.getLsbD_append]
  interval_cases i <;> simp [-BitVec.getLsbD_eq_getElem]

theorem encFence_fixed (fm pred succ : BitVec 4) (rs1 : RegIdx) (f3 : BitVec 3) (rd : RegIdx) (op : BitVec 7) :
    encFence fm pred succ rs1 f3 rd op &&& 0x0000707f#32 = encFence 0 0 0 0 f3 0 op := by
  refine BitVec.eq_of_getLsbD_eq fun i hi => ?_
  simp only [encFence, BitVec.getLsbD_and, BitVec.getLsbD_append]
  interval_cases i <;> simp [-BitVec.getLsbD_eq_getElem]

theorem encAmo_fixed (f5 : BitVec 5) (aq rl : Bool) (rs2 rs1 : RegIdx) (f3 : BitVec 3) (rd : RegIdx) :
    encAmo f5 aq rl rs2 rs1 f3 rd &&& 0xf800707f#32 = encAmo f5 false false 0 0 f3 0 := by
  refine BitVec.eq_of_getLsbD_eq fun i hi => ?_
  simp only [encAmo, BitVec.getLsbD_and, BitVec.getLsbD_append]
  interval_cases i <;> simp [-BitVec.getLsbD_eq_getElem]

theorem encAmo_fixed_lr (f5 : BitVec 5) (aq rl : Bool) (rs2 rs1 : RegIdx) (f3 : BitVec 3) (rd : RegIdx) :
    encAmo f5 aq rl rs2 rs1 f3 rd &&& 0xf9f0707f#32 = encAmo f5 false false rs2 0 f3 0 := by
  refine BitVec.eq_of_getLsbD_eq fun i hi => ?_
  simp only [encAmo, BitVec.getLsbD_and, BitVec.getLsbD_append]
  interval_cases i <;> simp [-BitVec.getLsbD_eq_getElem]

namespace Laws.EncodesItsRow

/-- The fixed bits of the instruction's word are those of its row. -/
def Statement (i : Instr) : Prop := encode i &&& i.row.mask = i.row.value

theorem lui (rd : RegIdx) (imm : BitVec 20) : Statement (.lui rd imm) := encU_fixed _ _ _
theorem auipc (rd : RegIdx) (imm : BitVec 20) : Statement (.auipc rd imm) := encU_fixed _ _ _
theorem jal (rd : RegIdx) (off : BitVec 21) : Statement (.jal rd off) := encJ_fixed _ _ _
theorem jalr (rd rs1 : RegIdx) (imm : BitVec 12) : Statement (.jalr rd rs1 imm) := encI_fixed _ _ _ _ _
theorem beq (rs1 rs2 : RegIdx) (off : BitVec 13) : Statement (.beq rs1 rs2 off) := encB_fixed _ _ _ _ _
theorem bne (rs1 rs2 : RegIdx) (off : BitVec 13) : Statement (.bne rs1 rs2 off) := encB_fixed _ _ _ _ _
theorem blt (rs1 rs2 : RegIdx) (off : BitVec 13) : Statement (.blt rs1 rs2 off) := encB_fixed _ _ _ _ _
theorem bge (rs1 rs2 : RegIdx) (off : BitVec 13) : Statement (.bge rs1 rs2 off) := encB_fixed _ _ _ _ _
theorem bltu (rs1 rs2 : RegIdx) (off : BitVec 13) : Statement (.bltu rs1 rs2 off) := encB_fixed _ _ _ _ _
theorem bgeu (rs1 rs2 : RegIdx) (off : BitVec 13) : Statement (.bgeu rs1 rs2 off) := encB_fixed _ _ _ _ _
theorem lb (rd rs1 : RegIdx) (imm : BitVec 12) : Statement (.lb rd rs1 imm) := encI_fixed _ _ _ _ _
theorem lh (rd rs1 : RegIdx) (imm : BitVec 12) : Statement (.lh rd rs1 imm) := encI_fixed _ _ _ _ _
theorem lw (rd rs1 : RegIdx) (imm : BitVec 12) : Statement (.lw rd rs1 imm) := encI_fixed _ _ _ _ _
theorem ld (rd rs1 : RegIdx) (imm : BitVec 12) : Statement (.ld rd rs1 imm) := encI_fixed _ _ _ _ _
theorem lbu (rd rs1 : RegIdx) (imm : BitVec 12) : Statement (.lbu rd rs1 imm) := encI_fixed _ _ _ _ _
theorem lhu (rd rs1 : RegIdx) (imm : BitVec 12) : Statement (.lhu rd rs1 imm) := encI_fixed _ _ _ _ _
theorem lwu (rd rs1 : RegIdx) (imm : BitVec 12) : Statement (.lwu rd rs1 imm) := encI_fixed _ _ _ _ _
theorem sb (rs1 rs2 : RegIdx) (imm : BitVec 12) : Statement (.sb rs1 rs2 imm) := encS_fixed _ _ _ _ _
theorem sh (rs1 rs2 : RegIdx) (imm : BitVec 12) : Statement (.sh rs1 rs2 imm) := encS_fixed _ _ _ _ _
theorem sw (rs1 rs2 : RegIdx) (imm : BitVec 12) : Statement (.sw rs1 rs2 imm) := encS_fixed _ _ _ _ _
theorem sd (rs1 rs2 : RegIdx) (imm : BitVec 12) : Statement (.sd rs1 rs2 imm) := encS_fixed _ _ _ _ _
theorem addi (rd rs1 : RegIdx) (imm : BitVec 12) : Statement (.addi rd rs1 imm) := encI_fixed _ _ _ _ _
theorem slti (rd rs1 : RegIdx) (imm : BitVec 12) : Statement (.slti rd rs1 imm) := encI_fixed _ _ _ _ _
theorem sltiu (rd rs1 : RegIdx) (imm : BitVec 12) : Statement (.sltiu rd rs1 imm) := encI_fixed _ _ _ _ _
theorem xori (rd rs1 : RegIdx) (imm : BitVec 12) : Statement (.xori rd rs1 imm) := encI_fixed _ _ _ _ _
theorem ori (rd rs1 : RegIdx) (imm : BitVec 12) : Statement (.ori rd rs1 imm) := encI_fixed _ _ _ _ _
theorem andi (rd rs1 : RegIdx) (imm : BitVec 12) : Statement (.andi rd rs1 imm) := encI_fixed _ _ _ _ _
theorem slli (rd rs1 : RegIdx) (shamt : BitVec 6) : Statement (.slli rd rs1 shamt) := encSh6_fixed _ _ _ _ _ _
theorem srli (rd rs1 : RegIdx) (shamt : BitVec 6) : Statement (.srli rd rs1 shamt) := encSh6_fixed _ _ _ _ _ _
theorem srai (rd rs1 : RegIdx) (shamt : BitVec 6) : Statement (.srai rd rs1 shamt) := encSh6_fixed _ _ _ _ _ _
theorem add (rd rs1 rs2 : RegIdx) : Statement (.add rd rs1 rs2) := encR_fixed _ _ _ _ _ _
theorem sub (rd rs1 rs2 : RegIdx) : Statement (.sub rd rs1 rs2) := encR_fixed _ _ _ _ _ _
theorem sll (rd rs1 rs2 : RegIdx) : Statement (.sll rd rs1 rs2) := encR_fixed _ _ _ _ _ _
theorem slt (rd rs1 rs2 : RegIdx) : Statement (.slt rd rs1 rs2) := encR_fixed _ _ _ _ _ _
theorem sltu (rd rs1 rs2 : RegIdx) : Statement (.sltu rd rs1 rs2) := encR_fixed _ _ _ _ _ _
theorem xor (rd rs1 rs2 : RegIdx) : Statement (.xor rd rs1 rs2) := encR_fixed _ _ _ _ _ _
theorem srl (rd rs1 rs2 : RegIdx) : Statement (.srl rd rs1 rs2) := encR_fixed _ _ _ _ _ _
theorem sra (rd rs1 rs2 : RegIdx) : Statement (.sra rd rs1 rs2) := encR_fixed _ _ _ _ _ _
theorem or (rd rs1 rs2 : RegIdx) : Statement (.or rd rs1 rs2) := encR_fixed _ _ _ _ _ _
theorem and (rd rs1 rs2 : RegIdx) : Statement (.and rd rs1 rs2) := encR_fixed _ _ _ _ _ _
theorem addiw (rd rs1 : RegIdx) (imm : BitVec 12) : Statement (.addiw rd rs1 imm) := encI_fixed _ _ _ _ _
theorem slliw (rd rs1 : RegIdx) (shamt : BitVec 5) : Statement (.slliw rd rs1 shamt) := encR_fixed _ _ _ _ _ _
theorem srliw (rd rs1 : RegIdx) (shamt : BitVec 5) : Statement (.srliw rd rs1 shamt) := encR_fixed _ _ _ _ _ _
theorem sraiw (rd rs1 : RegIdx) (shamt : BitVec 5) : Statement (.sraiw rd rs1 shamt) := encR_fixed _ _ _ _ _ _
theorem addw (rd rs1 rs2 : RegIdx) : Statement (.addw rd rs1 rs2) := encR_fixed _ _ _ _ _ _
theorem subw (rd rs1 rs2 : RegIdx) : Statement (.subw rd rs1 rs2) := encR_fixed _ _ _ _ _ _
theorem sllw (rd rs1 rs2 : RegIdx) : Statement (.sllw rd rs1 rs2) := encR_fixed _ _ _ _ _ _
theorem srlw (rd rs1 rs2 : RegIdx) : Statement (.srlw rd rs1 rs2) := encR_fixed _ _ _ _ _ _
theorem sraw (rd rs1 rs2 : RegIdx) : Statement (.sraw rd rs1 rs2) := encR_fixed _ _ _ _ _ _
theorem mul (rd rs1 rs2 : RegIdx) : Statement (.mul rd rs1 rs2) := encR_fixed _ _ _ _ _ _
theorem mulh (rd rs1 rs2 : RegIdx) : Statement (.mulh rd rs1 rs2) := encR_fixed _ _ _ _ _ _
theorem mulhsu (rd rs1 rs2 : RegIdx) : Statement (.mulhsu rd rs1 rs2) := encR_fixed _ _ _ _ _ _
theorem mulhu (rd rs1 rs2 : RegIdx) : Statement (.mulhu rd rs1 rs2) := encR_fixed _ _ _ _ _ _
theorem div (rd rs1 rs2 : RegIdx) : Statement (.div rd rs1 rs2) := encR_fixed _ _ _ _ _ _
theorem divu (rd rs1 rs2 : RegIdx) : Statement (.divu rd rs1 rs2) := encR_fixed _ _ _ _ _ _
theorem rem (rd rs1 rs2 : RegIdx) : Statement (.rem rd rs1 rs2) := encR_fixed _ _ _ _ _ _
theorem remu (rd rs1 rs2 : RegIdx) : Statement (.remu rd rs1 rs2) := encR_fixed _ _ _ _ _ _
theorem mulw (rd rs1 rs2 : RegIdx) : Statement (.mulw rd rs1 rs2) := encR_fixed _ _ _ _ _ _
theorem divw (rd rs1 rs2 : RegIdx) : Statement (.divw rd rs1 rs2) := encR_fixed _ _ _ _ _ _
theorem divuw (rd rs1 rs2 : RegIdx) : Statement (.divuw rd rs1 rs2) := encR_fixed _ _ _ _ _ _
theorem remw (rd rs1 rs2 : RegIdx) : Statement (.remw rd rs1 rs2) := encR_fixed _ _ _ _ _ _
theorem remuw (rd rs1 rs2 : RegIdx) : Statement (.remuw rd rs1 rs2) := encR_fixed _ _ _ _ _ _
theorem fence (fm pred succ : BitVec 4) (rs1 rd : RegIdx) : Statement (.fence fm pred succ rs1 rd) := encFence_fixed _ _ _ _ _ _ _
theorem fenceI (imm : BitVec 12) (rs1 rd : RegIdx) : Statement (.fenceI imm rs1 rd) := encI_fixed _ _ _ _ _
theorem ecall (rs1 rd : RegIdx) : Statement (.ecall rs1 rd) := encR_fixed12 _ _ _ _ _ _
theorem ebreak (rs1 rd : RegIdx) : Statement (.ebreak rs1 rd) := encR_fixed12 _ _ _ _ _ _
theorem sret (rs1 rd : RegIdx) : Statement (.sret rs1 rd) := encR_fixed12 _ _ _ _ _ _
theorem mret (rs1 rd : RegIdx) : Statement (.mret rs1 rd) := encR_fixed12 _ _ _ _ _ _
theorem wfi (rs1 rd : RegIdx) : Statement (.wfi rs1 rd) := encR_fixed12 _ _ _ _ _ _
theorem sfenceVma (rs1 rs2 rd : RegIdx) : Statement (.sfenceVma rs1 rs2 rd) := encR_fixed _ _ _ _ _ _
theorem csrrw (rd rs1 : RegIdx) (csr : CsrNum) : Statement (.csrrw rd rs1 csr) := encI_fixed _ _ _ _ _
theorem csrrs (rd rs1 : RegIdx) (csr : CsrNum) : Statement (.csrrs rd rs1 csr) := encI_fixed _ _ _ _ _
theorem csrrc (rd rs1 : RegIdx) (csr : CsrNum) : Statement (.csrrc rd rs1 csr) := encI_fixed _ _ _ _ _
theorem csrrwi (rd : RegIdx) (uimm : BitVec 5) (csr : CsrNum) : Statement (.csrrwi rd uimm csr) := encI_fixed _ _ _ _ _
theorem csrrsi (rd : RegIdx) (uimm : BitVec 5) (csr : CsrNum) : Statement (.csrrsi rd uimm csr) := encI_fixed _ _ _ _ _
theorem csrrci (rd : RegIdx) (uimm : BitVec 5) (csr : CsrNum) : Statement (.csrrci rd uimm csr) := encI_fixed _ _ _ _ _
theorem lrW (rd rs1 : RegIdx) (aq rl : Bool) : Statement (.lrW rd rs1 aq rl) := encAmo_fixed_lr _ _ _ _ _ _ _
theorem scW (rd rs1 rs2 : RegIdx) (aq rl : Bool) : Statement (.scW rd rs1 rs2 aq rl) := encAmo_fixed _ _ _ _ _ _ _
theorem amoswapW (rd rs1 rs2 : RegIdx) (aq rl : Bool) : Statement (.amoswapW rd rs1 rs2 aq rl) := encAmo_fixed _ _ _ _ _ _ _
theorem amoaddW (rd rs1 rs2 : RegIdx) (aq rl : Bool) : Statement (.amoaddW rd rs1 rs2 aq rl) := encAmo_fixed _ _ _ _ _ _ _
theorem amoxorW (rd rs1 rs2 : RegIdx) (aq rl : Bool) : Statement (.amoxorW rd rs1 rs2 aq rl) := encAmo_fixed _ _ _ _ _ _ _
theorem amoandW (rd rs1 rs2 : RegIdx) (aq rl : Bool) : Statement (.amoandW rd rs1 rs2 aq rl) := encAmo_fixed _ _ _ _ _ _ _
theorem amoorW (rd rs1 rs2 : RegIdx) (aq rl : Bool) : Statement (.amoorW rd rs1 rs2 aq rl) := encAmo_fixed _ _ _ _ _ _ _
theorem amominW (rd rs1 rs2 : RegIdx) (aq rl : Bool) : Statement (.amominW rd rs1 rs2 aq rl) := encAmo_fixed _ _ _ _ _ _ _
theorem amomaxW (rd rs1 rs2 : RegIdx) (aq rl : Bool) : Statement (.amomaxW rd rs1 rs2 aq rl) := encAmo_fixed _ _ _ _ _ _ _
theorem amominuW (rd rs1 rs2 : RegIdx) (aq rl : Bool) : Statement (.amominuW rd rs1 rs2 aq rl) := encAmo_fixed _ _ _ _ _ _ _
theorem amomaxuW (rd rs1 rs2 : RegIdx) (aq rl : Bool) : Statement (.amomaxuW rd rs1 rs2 aq rl) := encAmo_fixed _ _ _ _ _ _ _
theorem lrD (rd rs1 : RegIdx) (aq rl : Bool) : Statement (.lrD rd rs1 aq rl) := encAmo_fixed_lr _ _ _ _ _ _ _
theorem scD (rd rs1 rs2 : RegIdx) (aq rl : Bool) : Statement (.scD rd rs1 rs2 aq rl) := encAmo_fixed _ _ _ _ _ _ _
theorem amoswapD (rd rs1 rs2 : RegIdx) (aq rl : Bool) : Statement (.amoswapD rd rs1 rs2 aq rl) := encAmo_fixed _ _ _ _ _ _ _
theorem amoaddD (rd rs1 rs2 : RegIdx) (aq rl : Bool) : Statement (.amoaddD rd rs1 rs2 aq rl) := encAmo_fixed _ _ _ _ _ _ _
theorem amoxorD (rd rs1 rs2 : RegIdx) (aq rl : Bool) : Statement (.amoxorD rd rs1 rs2 aq rl) := encAmo_fixed _ _ _ _ _ _ _
theorem amoandD (rd rs1 rs2 : RegIdx) (aq rl : Bool) : Statement (.amoandD rd rs1 rs2 aq rl) := encAmo_fixed _ _ _ _ _ _ _
theorem amoorD (rd rs1 rs2 : RegIdx) (aq rl : Bool) : Statement (.amoorD rd rs1 rs2 aq rl) := encAmo_fixed _ _ _ _ _ _ _
theorem amominD (rd rs1 rs2 : RegIdx) (aq rl : Bool) : Statement (.amominD rd rs1 rs2 aq rl) := encAmo_fixed _ _ _ _ _ _ _
theorem amomaxD (rd rs1 rs2 : RegIdx) (aq rl : Bool) : Statement (.amomaxD rd rs1 rs2 aq rl) := encAmo_fixed _ _ _ _ _ _ _
theorem amominuD (rd rs1 rs2 : RegIdx) (aq rl : Bool) : Statement (.amominuD rd rs1 rs2 aq rl) := encAmo_fixed _ _ _ _ _ _ _
theorem amomaxuD (rd rs1 rs2 : RegIdx) (aq rl : Bool) : Statement (.amomaxuD rd rs1 rs2 aq rl) := encAmo_fixed _ _ _ _ _ _ _

end Laws.EncodesItsRow

end Sys2Proof
end

