-- ==== Sys2Proof/Laws/Reads.lean ====
section
/-! SUPPORT. Writing a general register commutes with every operation that does not read it: the bus, translation, traps,
trap returns and CSR writes; and which registers the storing instructions read. -/

namespace Sys2Proof.Machine

/-- The state with another register file. -/
def State.withRegs (s : State) (x : Vector Word 32) (w : Vector Bool 32) : State := { s with x := x, written := w }

/-- A register write is a change of the register file alone. -/
theorem State.setReg_eq_withRegs (r : RegIdx) (v : Word) (s : State) :
    s.setReg r v = s.withRegs (if r = 0 then s.x else s.x.set r.toNat v r.isLt)
      (if r = 0 then s.written else s.written.set r.toNat true r.isLt) := by
  unfold State.setReg State.withRegs
  split <;> rfl

/-! ## The bus and translation -/

theorem busLoad_setReg (s : State) (r : RegIdx) (v : Word) (pa : Word) (n : Width) (k : AccessKind) :
    busLoad (s.setReg r v) pa n k = (busLoad s pa n k).map fun q => (q.1, q.2.setReg r v) := by
  unfold busLoad
  rw [State.setReg_cfg]
  cases regionOf s.cfg pa.toNat
  case unmapped => rfl
  case dram off => by_cases h : off + n.bytes ≤ s.cfg.dramSize <;> simp [h, Except.map]
  all_goals (simp only [State.setReg_eq_withRegs]; cases n <;> rfl)

theorem busStore_setReg (s : State) (r : RegIdx) (v : Word) (pa w : Word) (n : Width) (k : AccessKind) :
    busStore (s.setReg r v) pa n w k = (busStore s pa n w k).map fun t => t.setReg r v := by
  unfold busStore
  rw [State.setReg_cfg]
  simp only [State.setReg_eq_withRegs]
  cases regionOf s.cfg pa.toNat
  case unmapped => rfl
  case dram off => dsimp only; split <;> rfl
  case uart off => by_cases h : off = 0 <;> cases n <;> simp only [uartStore, h, if_true, if_false] <;> rfl
  all_goals (cases n <;> rfl)

theorem walk_setReg (s : State) (r : RegIdx) (v : Word) (va : Word) (k : AccessKind) (levels : Nat) (a : Word) :
    walk (s.setReg r v) va k levels a = walk s va k levels a := by
  induction levels generalizing a with
  | zero => rfl
  | succ i ih =>
    unfold walk
    rw [busLoad_setReg]
    cases busLoad s (a + (vpn va i).setWidth 64 * 8) .double .load with
    | error e => rfl
    | ok q => simp only [Except.map, ih, State.setReg_cfg]

@[simp] theorem translate_setReg (s : State) (r : RegIdx) (v : Word) (va : Word) (k : AccessKind) :
    translate (s.setReg r v) va k = translate s va k := by
  simp [translate, walk_setReg]

/-! ## Traps and CSRs -/

theorem State.setPc_setReg (s : State) (r : RegIdx) (v a : Word) : (s.setReg r v).setPc a = (s.setPc a).setReg r v := by
  simp only [State.setReg_eq_withRegs]; rfl

theorem State.setMode_setReg (s : State) (r : RegIdx) (v : Word) (m : Mode) :
    (s.setReg r v).setMode m = (s.setMode m).setReg r v := by
  simp only [State.setReg_eq_withRegs]; rfl

theorem State.setResv_setReg (s : State) (r : RegIdx) (v : Word) (a : Option Word) :
    (s.setReg r v).setResv a = (s.setResv a).setReg r v := by
  simp only [State.setReg_eq_withRegs]; rfl

theorem State.setHalted_setReg (s : State) (r : RegIdx) (v : Word) (b : Bool) :
    (s.setReg r v).setHalted b = (s.setHalted b).setReg r v := by
  simp only [State.setReg_eq_withRegs]; rfl

theorem State.setCsr_setReg (s : State) (r : RegIdx) (v : Word) (a : CsrNum) (w : Word) :
    (s.setReg r v).setCsr a w = (s.setCsr a w).setReg r v := by
  simp only [State.setReg_eq_withRegs]; rfl

theorem State.setPaging_setReg (s : State) (r : RegIdx) (v : Word) (b : Bool) (a : Word) :
    (s.setReg r v).setPaging b a = (s.setPaging b a).setReg r v := by
  simp only [State.setReg_eq_withRegs]; rfl

theorem State.trapEpc_setReg (s : State) (r : RegIdx) (v : Word) (t : Trap) : (s.setReg r v).trapEpc t = s.trapEpc t := by
  simp only [State.trapEpc, State.setReg_pc, State.setReg_cfg]

theorem takeTrap_setReg (s : State) (r : RegIdx) (v : Word) (t : Trap) :
    (s.setReg r v).takeTrap t = (s.takeTrap t).setReg r v := by
  have h : (s.setReg r v).delegated t = s.delegated t := by simp only [State.delegated, State.setReg_mode, State.setReg_csrRaw]
  cases hd : s.delegated t
  · rw [State.takeTrap_notDelegated (h.trans hd), State.takeTrap_notDelegated hd]
    simp only [State.enterM, State.trapEpc_setReg, State.setReg_csrRaw, State.setReg_mode, State.setCsr_setReg,
      State.setMode_setReg, State.setPc_setReg, State.setResv_setReg]
  · rw [State.takeTrap_delegated (h.trans hd), State.takeTrap_delegated hd]
    simp only [State.enterS, State.trapEpc_setReg, State.setReg_csrRaw, State.setReg_mode, State.setCsr_setReg,
      State.setMode_setReg, State.setPc_setReg, State.setResv_setReg]

theorem deliver_setReg (s : State) (r : RegIdx) (v : Word) (e : Exc) :
    (s.setReg r v).deliver e = (s.deliver e).setReg r v := by
  unfold State.deliver
  rw [takeTrap_setReg]
  split
  · exact State.setHalted_setReg _ _ _ _
  · rfl

theorem csrWrite_setReg (s : State) (r : RegIdx) (v : Word) (a : CsrNum) (w : Word) :
    (s.setReg r v).csrWrite a w = (s.csrWrite a w).setReg r v := by
  unfold State.csrWrite
  split
  · simp only [State.setReg_csrRaw, State.setCsr_setReg]
  · split
    · simp only [State.setReg_cfg, State.setCsr_setReg, State.setPaging_setReg]
    · exact State.setCsr_setReg _ _ _ _ _

/-- Two writes of one register: the second alone. -/
theorem State.setReg_setReg_same (s : State) (r : RegIdx) (v w : Word) : (s.setReg r v).setReg r w = s.setReg r w := by
  unfold State.setReg
  split
  · rfl
  · simp

/-- Writes of two registers commute. -/
theorem State.setReg_comm (s : State) {q r : RegIdx} (h : q ≠ r) (v w : Word) :
    (s.setReg r v).setReg q w = (s.setReg q w).setReg r v := by
  have hn : q.toNat ≠ r.toNat := fun e => h (BitVec.eq_of_toNat_eq e)
  unfold State.setReg
  by_cases hq : q = 0 <;> by_cases hr : r = 0 <;> simp only [hq, hr, if_true, if_false]
  congr 1
  · exact Vector.set_comm v w hn.symm
  · exact Vector.set_comm true true hn.symm

/-! ## The registers the storing instructions read -/

theorem State.storeReadsData_eq {s : State} {rs1 : RegIdx} {imm : BitVec 12} :
    s.storeReadsData rs1 imm = (translate s (s.ea rs1 imm) .store).isOk := by
  unfold State.storeReadsData
  cases translate s (s.ea rs1 imm) .store <;> rfl

/-- SC reads `x[rs2]` exactly where it stores. -/
theorem State.conditionalReadsData_iff {s : State} {n : Width} {rs1 : RegIdx} :
    s.conditionalReadsData n rs1 = true ↔
      alignedTo n (s.reg rs1) = true ∧ ∃ pa, translate s (s.reg rs1) .store = .ok pa ∧ s.resv = some pa := by
  unfold State.conditionalReadsData
  cases h : translate s (s.reg rs1) .store <;> simp

/-- An AMO reads `x[rs2]` exactly where its bus read succeeds. -/
theorem State.amoReadsOperand_iff {s : State} {n : Width} {rs1 : RegIdx} :
    s.amoReadsOperand n rs1 = true ↔
      alignedTo n (s.reg rs1) = true ∧ ∃ pa x, translate s (s.reg rs1) .store = .ok pa ∧ busLoad s pa n .store = .ok x := by
  unfold State.amoReadsOperand
  cases h : translate s (s.reg rs1) .store with
  | error e => simp
  | ok pa =>
    cases hb : busLoad s pa n .store with
    | error e => simp [hb]
    | ok x => obtain ⟨w, s'⟩ := x; simp [hb]

end Sys2Proof.Machine
end

