-- ==== Sys2Proof/Tests/Slice0.lean ====
section
/-! SUPPORT. The model's own tests. Expected results are the vectors of spec/95_test_vectors.md (Part and row named at each
group) and words written out field by field from spec/30_encoding.md; none comes from the model. Last, a witness for each
statement with hypotheses. -/

namespace Sys2Proof.Tests

open Sys2Proof.Machine Sys2Proof.Safety

/-! ## Well-formedness: one ill-formed term for each check, refused -/

theorem test_wf_odd_branch_offset : (Instr.beq 1 2 3).wellFormed true = false := by decide
theorem test_wf_odd_bne_offset : (Instr.bne 1 2 0x1FFF).wellFormed true = false := by decide
theorem test_wf_odd_signed_branch_offsets : (Instr.blt 1 2 1).wellFormed true = false ∧
    (Instr.bge 1 2 1).wellFormed true = false ∧ (Instr.bltu 1 2 1).wellFormed true = false ∧
    (Instr.bgeu 1 2 1).wellFormed true = false := by decide
theorem test_wf_odd_jump_offset : (Instr.jal 1 5).wellFormed true = false := by decide
theorem test_wf_multiply_absent : (Instr.mul 1 2 3).wellFormed false = false ∧
    (Instr.remuw 1 2 3).wellFormed false = false ∧ (Instr.mul 1 2 3).wellFormed true = true := by decide

/-! ## Decoding: every constructor, its word written out field by field (30_encoding.md R162 to R182) -/

theorem test_decode_upper_and_jumps :
  decodeWord true 0b10100101110000111110_10101_0110111#32 = .ok (.lui 21 0xA5C3E) ∧
  decodeWord true 0b10100101110000111110_10101_0010111#32 = .ok (.auipc 21 0xA5C3E) ∧
  decodeWord true 0b1_1101011010_0_01011010_10101_1101111#32 = .ok (.jal 21 0x15a6b4) ∧
  decodeWord true 0b101001011100_01011_000_10101_1100111#32 = .ok (.jalr 21 11 0xA5C) := by decide

theorem test_decode_branches :
  decodeWord true 0b1_010010_11010_01011_000_1110_1_1100011#32 = .ok (.beq 11 26 0x1a5c) ∧
  decodeWord true 0b1_010010_11010_01011_001_1110_1_1100011#32 = .ok (.bne 11 26 0x1a5c) ∧
  decodeWord true 0b1_010010_11010_01011_100_1110_1_1100011#32 = .ok (.blt 11 26 0x1a5c) ∧
  decodeWord true 0b1_010010_11010_01011_101_1110_1_1100011#32 = .ok (.bge 11 26 0x1a5c) ∧
  decodeWord true 0b1_010010_11010_01011_110_1110_1_1100011#32 = .ok (.bltu 11 26 0x1a5c) ∧
  decodeWord true 0b1_010010_11010_01011_111_1110_1_1100011#32 = .ok (.bgeu 11 26 0x1a5c) := by decide

theorem test_decode_loads :
  decodeWord true 0b101001011100_01011_000_10101_0000011#32 = .ok (.lb 21 11 0xA5C) ∧
  decodeWord true 0b101001011100_01011_001_10101_0000011#32 = .ok (.lh 21 11 0xA5C) ∧
  decodeWord true 0b101001011100_01011_010_10101_0000011#32 = .ok (.lw 21 11 0xA5C) ∧
  decodeWord true 0b101001011100_01011_011_10101_0000011#32 = .ok (.ld 21 11 0xA5C) ∧
  decodeWord true 0b101001011100_01011_100_10101_0000011#32 = .ok (.lbu 21 11 0xA5C) ∧
  decodeWord true 0b101001011100_01011_101_10101_0000011#32 = .ok (.lhu 21 11 0xA5C) ∧
  decodeWord true 0b101001011100_01011_110_10101_0000011#32 = .ok (.lwu 21 11 0xA5C) := by decide

theorem test_decode_stores :
  decodeWord true 0b1010010_11010_01011_000_11100_0100011#32 = .ok (.sb 11 26 0xA5C) ∧
  decodeWord true 0b1010010_11010_01011_001_11100_0100011#32 = .ok (.sh 11 26 0xA5C) ∧
  decodeWord true 0b1010010_11010_01011_010_11100_0100011#32 = .ok (.sw 11 26 0xA5C) ∧
  decodeWord true 0b1010010_11010_01011_011_11100_0100011#32 = .ok (.sd 11 26 0xA5C) := by decide

theorem test_decode_register_immediate :
  decodeWord true 0b101001011100_01011_000_10101_0010011#32 = .ok (.addi 21 11 0xA5C) ∧
  decodeWord true 0b101001011100_01011_010_10101_0010011#32 = .ok (.slti 21 11 0xA5C) ∧
  decodeWord true 0b101001011100_01011_011_10101_0010011#32 = .ok (.sltiu 21 11 0xA5C) ∧
  decodeWord true 0b101001011100_01011_100_10101_0010011#32 = .ok (.xori 21 11 0xA5C) ∧
  decodeWord true 0b101001011100_01011_110_10101_0010011#32 = .ok (.ori 21 11 0xA5C) ∧
  decodeWord true 0b101001011100_01011_111_10101_0010011#32 = .ok (.andi 21 11 0xA5C) ∧
  decodeWord true 0b000000_101101_01011_001_10101_0010011#32 = .ok (.slli 21 11 0x2d) ∧
  decodeWord true 0b000000_101101_01011_101_10101_0010011#32 = .ok (.srli 21 11 0x2d) ∧
  decodeWord true 0b010000_101101_01011_101_10101_0010011#32 = .ok (.srai 21 11 0x2d) := by decide

theorem test_decode_register_register :
  decodeWord true 0b0000000_11010_01011_000_10101_0110011#32 = .ok (.add 21 11 26) ∧
  decodeWord true 0b0100000_11010_01011_000_10101_0110011#32 = .ok (.sub 21 11 26) ∧
  decodeWord true 0b0000000_11010_01011_001_10101_0110011#32 = .ok (.sll 21 11 26) ∧
  decodeWord true 0b0000000_11010_01011_010_10101_0110011#32 = .ok (.slt 21 11 26) ∧
  decodeWord true 0b0000000_11010_01011_011_10101_0110011#32 = .ok (.sltu 21 11 26) ∧
  decodeWord true 0b0000000_11010_01011_100_10101_0110011#32 = .ok (.xor 21 11 26) ∧
  decodeWord true 0b0000000_11010_01011_101_10101_0110011#32 = .ok (.srl 21 11 26) ∧
  decodeWord true 0b0100000_11010_01011_101_10101_0110011#32 = .ok (.sra 21 11 26) ∧
  decodeWord true 0b0000000_11010_01011_110_10101_0110011#32 = .ok (.or 21 11 26) ∧
  decodeWord true 0b0000000_11010_01011_111_10101_0110011#32 = .ok (.and 21 11 26) := by decide

theorem test_decode_word_forms :
  decodeWord true 0b101001011100_01011_000_10101_0011011#32 = .ok (.addiw 21 11 0xA5C) ∧
  decodeWord true 0b0000000_11101_01011_001_10101_0011011#32 = .ok (.slliw 21 11 0x1d) ∧
  decodeWord true 0b0000000_11101_01011_101_10101_0011011#32 = .ok (.srliw 21 11 0x1d) ∧
  decodeWord true 0b0100000_11101_01011_101_10101_0011011#32 = .ok (.sraiw 21 11 0x1d) ∧
  decodeWord true 0b0000000_11010_01011_000_10101_0111011#32 = .ok (.addw 21 11 26) ∧
  decodeWord true 0b0100000_11010_01011_000_10101_0111011#32 = .ok (.subw 21 11 26) ∧
  decodeWord true 0b0000000_11010_01011_001_10101_0111011#32 = .ok (.sllw 21 11 26) ∧
  decodeWord true 0b0000000_11010_01011_101_10101_0111011#32 = .ok (.srlw 21 11 26) ∧
  decodeWord true 0b0100000_11010_01011_101_10101_0111011#32 = .ok (.sraw 21 11 26) := by decide

theorem test_decode_multiply_and_divide :
  decodeWord true 0b0000001_11010_01011_000_10101_0110011#32 = .ok (.mul 21 11 26) ∧
  decodeWord true 0b0000001_11010_01011_001_10101_0110011#32 = .ok (.mulh 21 11 26) ∧
  decodeWord true 0b0000001_11010_01011_010_10101_0110011#32 = .ok (.mulhsu 21 11 26) ∧
  decodeWord true 0b0000001_11010_01011_011_10101_0110011#32 = .ok (.mulhu 21 11 26) ∧
  decodeWord true 0b0000001_11010_01011_100_10101_0110011#32 = .ok (.div 21 11 26) ∧
  decodeWord true 0b0000001_11010_01011_101_10101_0110011#32 = .ok (.divu 21 11 26) ∧
  decodeWord true 0b0000001_11010_01011_110_10101_0110011#32 = .ok (.rem 21 11 26) ∧
  decodeWord true 0b0000001_11010_01011_111_10101_0110011#32 = .ok (.remu 21 11 26) ∧
  decodeWord true 0b0000001_11010_01011_000_10101_0111011#32 = .ok (.mulw 21 11 26) ∧
  decodeWord true 0b0000001_11010_01011_100_10101_0111011#32 = .ok (.divw 21 11 26) ∧
  decodeWord true 0b0000001_11010_01011_101_10101_0111011#32 = .ok (.divuw 21 11 26) ∧
  decodeWord true 0b0000001_11010_01011_110_10101_0111011#32 = .ok (.remw 21 11 26) ∧
  decodeWord true 0b0000001_11010_01011_111_10101_0111011#32 = .ok (.remuw 21 11 26) := by decide

theorem test_decode_system :
  decodeWord true 0b1000_0011_1100_01011_000_10101_0001111#32 = .ok (.fence 8 3 12 11 21) ∧
  decodeWord true 0b101001011100_01011_001_10101_0001111#32 = .ok (.fenceI 0xA5C 11 21) ∧
  decodeWord true 0b0000000_00000_01011_000_10101_1110011#32 = .ok (.ecall 11 21) ∧
  decodeWord true 0b0000000_00001_01011_000_10101_1110011#32 = .ok (.ebreak 11 21) ∧
  decodeWord true 0b0001000_00010_01011_000_10101_1110011#32 = .ok (.sret 11 21) ∧
  decodeWord true 0b0011000_00010_01011_000_10101_1110011#32 = .ok (.mret 11 21) ∧
  decodeWord true 0b0001000_00101_01011_000_10101_1110011#32 = .ok (.wfi 11 21) ∧
  decodeWord true 0b0001001_11010_01011_000_10101_1110011#32 = .ok (.sfenceVma 11 26 21) := by decide

theorem test_decode_csr :
  decodeWord true 0b010110100011_01011_001_10101_1110011#32 = .ok (.csrrw 21 11 0x5A3) ∧
  decodeWord true 0b010110100011_01011_010_10101_1110011#32 = .ok (.csrrs 21 11 0x5A3) ∧
  decodeWord true 0b010110100011_01011_011_10101_1110011#32 = .ok (.csrrc 21 11 0x5A3) ∧
  decodeWord true 0b010110100011_10011_101_10101_1110011#32 = .ok (.csrrwi 21 19 0x5A3) ∧
  decodeWord true 0b010110100011_10011_110_10101_1110011#32 = .ok (.csrrsi 21 19 0x5A3) ∧
  decodeWord true 0b010110100011_10011_111_10101_1110011#32 = .ok (.csrrci 21 19 0x5A3) := by decide

theorem test_decode_atomics_word :
  decodeWord true 0b00010_1_0_00000_01011_010_10101_0101111#32 = .ok (.lrW 21 11 true false) ∧
  decodeWord true 0b00011_1_0_11010_01011_010_10101_0101111#32 = .ok (.scW 21 11 26 true false) ∧
  decodeWord true 0b00001_1_0_11010_01011_010_10101_0101111#32 = .ok (.amoswapW 21 11 26 true false) ∧
  decodeWord true 0b00000_1_0_11010_01011_010_10101_0101111#32 = .ok (.amoaddW 21 11 26 true false) ∧
  decodeWord true 0b00100_1_0_11010_01011_010_10101_0101111#32 = .ok (.amoxorW 21 11 26 true false) ∧
  decodeWord true 0b01100_1_0_11010_01011_010_10101_0101111#32 = .ok (.amoandW 21 11 26 true false) ∧
  decodeWord true 0b01000_1_0_11010_01011_010_10101_0101111#32 = .ok (.amoorW 21 11 26 true false) ∧
  decodeWord true 0b10000_1_0_11010_01011_010_10101_0101111#32 = .ok (.amominW 21 11 26 true false) ∧
  decodeWord true 0b10100_1_0_11010_01011_010_10101_0101111#32 = .ok (.amomaxW 21 11 26 true false) ∧
  decodeWord true 0b11000_1_0_11010_01011_010_10101_0101111#32 = .ok (.amominuW 21 11 26 true false) ∧
  decodeWord true 0b11100_1_0_11010_01011_010_10101_0101111#32 = .ok (.amomaxuW 21 11 26 true false) := by decide

theorem test_decode_atomics_double :
  decodeWord true 0b00010_1_0_00000_01011_011_10101_0101111#32 = .ok (.lrD 21 11 true false) ∧
  decodeWord true 0b00011_1_0_11010_01011_011_10101_0101111#32 = .ok (.scD 21 11 26 true false) ∧
  decodeWord true 0b00001_1_0_11010_01011_011_10101_0101111#32 = .ok (.amoswapD 21 11 26 true false) ∧
  decodeWord true 0b00000_1_0_11010_01011_011_10101_0101111#32 = .ok (.amoaddD 21 11 26 true false) ∧
  decodeWord true 0b00100_1_0_11010_01011_011_10101_0101111#32 = .ok (.amoxorD 21 11 26 true false) ∧
  decodeWord true 0b01100_1_0_11010_01011_011_10101_0101111#32 = .ok (.amoandD 21 11 26 true false) ∧
  decodeWord true 0b01000_1_0_11010_01011_011_10101_0101111#32 = .ok (.amoorD 21 11 26 true false) ∧
  decodeWord true 0b10000_1_0_11010_01011_011_10101_0101111#32 = .ok (.amominD 21 11 26 true false) ∧
  decodeWord true 0b10100_1_0_11010_01011_011_10101_0101111#32 = .ok (.amomaxD 21 11 26 true false) ∧
  decodeWord true 0b11000_1_0_11010_01011_011_10101_0101111#32 = .ok (.amominuD 21 11 26 true false) ∧
  decodeWord true 0b11100_1_0_11010_01011_011_10101_0101111#32 = .ok (.amomaxuD 21 11 26 true false) := by decide

/-- The rejections of 95_test_vectors.md B10, each by name, and the ignored fields. -/
theorem test_decode_rejections :
  decodeWord true 0x04109293#32 = .error .reservedOpImm ∧ decodeWord true 0x0210929b#32 = .error .reservedOpImm32 ∧
  decodeWord true 0x103122af#32 = .error .reservedAmo ∧ decodeWord true 0x1001402f#32 = .error .reservedAmo ∧
  decodeWord true 0x000090e7#32 = .error .reservedJalr ∧ decodeWord true 0x0000a063#32 = .error .reservedBranch ∧
  decodeWord true 0x00007003#32 = .error .reservedLoad ∧ decodeWord true 0x00004023#32 = .error .reservedStore ∧
  decodeWord true 0x00004073#32 = .error .reservedSystem ∧ decodeWord true 0x00200073#32 = .error .reservedSystem ∧
  decodeWord true 0x0000200f#32 = .error .reservedMiscMem ∧ decodeWord true 0x40001033#32 = .error .reservedOp ∧
  decodeWord true 0x0000203b#32 = .error .reservedOp32 ∧ decodeWord true 0x0000000b#32 = .error .unknownOpcode ∧
  decodeWord true 0x00000001#32 = .error .unknownOpcode ∧ decodeWord true 0xffffffff#32 = .error .unknownOpcode ∧
  decodeWord false 0x022081b3#32 = .error .multiplyAbsent ∧ decodeWord true 0x000302f3#32 = .ok (.ecall 6 5) := by decide

/-- Immediates of 95_test_vectors.md A1 at their sign and field boundaries. -/
theorem test_immediates :
  (immIOf 0xdeadbeef#32).signExtend 64 = 0xfffffffffffffdea#64 ∧ (immSOf 0xdeadbeef#32).signExtend 64 = 0xfffffffffffffdfd#64 ∧
  (immBOf 0xdeadbeef#32).signExtend 64 = 0xfffffffffffffdfc#64 ∧ (immJOf 0xdeadbeef#32).signExtend 64 = 0xfffffffffffdb5ea#64 ∧
  immU64 (immUOf 0xdeadbeef#32) = 0xffffffffdeadb000#64 ∧ (immBOf 0x00000f80#32).signExtend 64 = 0x81e#64 ∧
  (immJOf 0x00100000#32).signExtend 64 = 0x800#64 ∧ (immBOf 0x80000000#32).signExtend 64 = 0xfffffffffffff000#64 := by decide

theorem test_decode_bytes : decodeBytes true [0xb3, 0x81, 0x20, 0x00, 0x77] = .ok (.add 3 1 2, [0x77]) ∧
  decodeBytes true [0xb3, 0x81, 0x20] = .error .truncated ∧ encodeBytes (.add 3 1 2) = [0xb3, 0x81, 0x20, 0x00] := by decide

/-! ## Helpers -/

/-- The reset state with these registers set. -/
def start (regs : List (RegIdx × Word)) : State := regs.foldl (fun s p => s.setReg p.1 p.2) State.reset

/-- One step of `s` with word `w` at its pc gives a state that passes `f`. -/
def runs (s : State) (w : Nat) (f : State → Bool) : Bool :=
  match step (s.withFetchWord 32 w) with
  | .next t => f t
  | _ => false

/-- A doubleword in DRAM. -/
def withDouble (s : State) (a : Nat) (v : Word) : State := s.setMem (Memory.writeLE s.mem a 8 v)

/-- B6's bytes. -/
def dataAt (s : State) : State := withDouble s 0x80001000 0x8081828384858687
/-- B8's doubleword. -/
def lockAt (s : State) : State := withDouble s 0x80001000 0x80000001
/-- B7's CSRs. -/
def withCsrs (s : State) : State := ((s.setCsr Csr.mscratch 0xF0).setCsr Csr.mideleg 0x222).setCsr Csr.mie 0x888

/-- A trap to Machine mode with `mtvec = 0` from the first word of DRAM; codes 0, 1, 5, 6 and 7 halt. -/
def trapped (t : State) (code : Nat) : Bool :=
  t.pc == 0 && t.mode == .machine && t.csrRaw Csr.mcause == BitVec.ofNat 64 code && t.csrRaw Csr.mepc == 0x80000000 &&
    t.csrRaw Csr.mtval == 0 && t.halted == (code ∈ [0, 1, 5, 6, 7])

/-! ## Integer register-register and register-immediate (B1, B2) -/

theorem test_add : runs (start [(1, 0xffffffffffffffff), (2, 0x1)]) 0x002081b3 (fun t => t.reg 3 == 0x0) = true := by decide
theorem test_sub : runs (start [(1, 0x0), (2, 0x1)]) 0x402081b3 (fun t => t.reg 3 == 0xffffffffffffffff) = true := by decide
theorem test_slt : runs (start [(1, 0xffffffffffffffff), (2, 0x1)]) 0x0020a1b3 (fun t => t.reg 3 == 0x1) = true := by decide
theorem test_sltu : runs (start [(1, 0xffffffffffffffff), (2, 0x1)]) 0x0020b1b3 (fun t => t.reg 3 == 0x0) = true := by decide
theorem test_sll : runs (start [(1, 0x1), (2, 0x43)]) 0x002091b3 (fun t => t.reg 3 == 0x8) = true := by decide
theorem test_srl : runs (start [(1, 0x8000000000000000), (2, 0x3f)]) 0x0020d1b3 (fun t => t.reg 3 == 0x1) = true := by decide
theorem test_sra : runs (start [(1, 0x8000000000000000), (2, 0x3f)]) 0x4020d1b3 (fun t => t.reg 3 == 0xffffffffffffffff) = true := by decide
theorem test_xor : runs (start [(1, 0xf0f0), (2, 0xff00)]) 0x0020c1b3 (fun t => t.reg 3 == 0xff0) = true := by decide
theorem test_or : runs (start [(1, 0xf0f0), (2, 0xff00)]) 0x0020e1b3 (fun t => t.reg 3 == 0xfff0) = true := by decide
theorem test_and : runs (start [(1, 0xf0f0), (2, 0xff00)]) 0x0020f1b3 (fun t => t.reg 3 == 0xf000) = true := by decide
theorem test_add_again : runs (start [(1, 0x5), (2, 0x6)]) 0x00208033 (fun t => t.reg 0 == 0x0) = true := by decide
theorem test_addi : runs (start []) 0xfff00293 (fun t => t.reg 5 == 0xffffffffffffffff) = true := by decide
theorem test_addi_again : runs (start [(1, 0xffffffffffffffff)]) 0x7ff08293 (fun t => t.reg 5 == 0x7fe) = true := by decide
theorem test_slti : runs (start [(1, 0xfffffffffffffffe)]) 0xfff0a293 (fun t => t.reg 5 == 0x1) = true := by decide
theorem test_sltiu : runs (start [(1, 0x5)]) 0xfff0b293 (fun t => t.reg 5 == 0x1) = true := by decide
theorem test_sltiu_again : runs (start [(1, 0x0)]) 0x0010b293 (fun t => t.reg 5 == 0x1) = true := by decide
theorem test_xori : runs (start [(1, 0x1234)]) 0xfff0c293 (fun t => t.reg 5 == 0xffffffffffffedcb) = true := by decide
theorem test_ori : runs (start [(1, 0x8000)]) 0x7ff0e293 (fun t => t.reg 5 == 0x87ff) = true := by decide
theorem test_andi : runs (start [(1, 0x12345)]) 0xff00f293 (fun t => t.reg 5 == 0x12340) = true := by decide
theorem test_slli : runs (start [(1, 0x1)]) 0x03f09293 (fun t => t.reg 5 == 0x8000000000000000) = true := by decide
theorem test_srli : runs (start [(1, 0xffffffffffffffff)]) 0x03f0d293 (fun t => t.reg 5 == 0x1) = true := by decide
theorem test_srai : runs (start [(1, 0x8000000000000000)]) 0x43f0d293 (fun t => t.reg 5 == 0xffffffffffffffff) = true := by decide
theorem test_srai_again : runs (start [(1, 0x8000)]) 0x4000d293 (fun t => t.reg 5 == 0x8000) = true := by decide

/-! ## Word forms, multiply and divide (B3, B4) -/

theorem test_addiw : runs (start [(1, 0x7fffffff)]) 0x0010829b (fun t => t.reg 5 == 0xffffffff80000000) = true := by decide
theorem test_addiw_again : runs (start [(1, 0xffffffff00000001)]) 0x0000829b (fun t => t.reg 5 == 0x1) = true := by decide
theorem test_slliw : runs (start [(1, 0x1)]) 0x01f0929b (fun t => t.reg 5 == 0xffffffff80000000) = true := by decide
theorem test_srliw : runs (start [(1, 0xffffffff80000000)]) 0x01f0d29b (fun t => t.reg 5 == 0x1) = true := by decide
theorem test_srliw_again : runs (start [(1, 0x80000000)]) 0x0000d29b (fun t => t.reg 5 == 0xffffffff80000000) = true := by decide
theorem test_sraiw : runs (start [(1, 0x80000000)]) 0x41f0d29b (fun t => t.reg 5 == 0xffffffffffffffff) = true := by decide
theorem test_addw : runs (start [(1, 0x7fffffff), (2, 0x1)]) 0x002081bb (fun t => t.reg 3 == 0xffffffff80000000) = true := by decide
theorem test_subw : runs (start [(1, 0x0), (2, 0x1)]) 0x402081bb (fun t => t.reg 3 == 0xffffffffffffffff) = true := by decide
theorem test_sllw : runs (start [(1, 0x1), (2, 0x3f)]) 0x002091bb (fun t => t.reg 3 == 0xffffffff80000000) = true := by decide
theorem test_srlw : runs (start [(1, 0x80000000), (2, 0x3f)]) 0x0020d1bb (fun t => t.reg 3 == 0x1) = true := by decide
theorem test_sraw : runs (start [(1, 0x80000000), (2, 0x3f)]) 0x4020d1bb (fun t => t.reg 3 == 0xffffffffffffffff) = true := by decide
theorem test_mul : runs (start [(1, 0x8000000000000000), (2, 0x2)]) 0x022081b3 (fun t => t.reg 3 == 0x0) = true := by decide
theorem test_mulh : runs (start [(1, 0xffffffffffffffff), (2, 0xffffffffffffffff)]) 0x022091b3 (fun t => t.reg 3 == 0x0) = true := by decide
theorem test_mulh_again : runs (start [(1, 0x8000000000000000), (2, 0x8000000000000000)]) 0x022091b3 (fun t => t.reg 3 == 0x4000000000000000) = true := by decide
theorem test_mulhsu : runs (start [(1, 0xffffffffffffffff), (2, 0xffffffffffffffff)]) 0x0220a1b3 (fun t => t.reg 3 == 0xffffffffffffffff) = true := by decide
theorem test_mulhu : runs (start [(1, 0xffffffffffffffff), (2, 0xffffffffffffffff)]) 0x0220b1b3 (fun t => t.reg 3 == 0xfffffffffffffffe) = true := by decide
theorem test_div : runs (start [(1, 0xfffffffffffffff9), (2, 0x2)]) 0x0220c1b3 (fun t => t.reg 3 == 0xfffffffffffffffd) = true := by decide
theorem test_div_again : runs (start [(1, 0x7), (2, 0x0)]) 0x0220c1b3 (fun t => t.reg 3 == 0xffffffffffffffff) = true := by decide
theorem test_divu : runs (start [(1, 0x7), (2, 0x0)]) 0x0220d1b3 (fun t => t.reg 3 == 0xffffffffffffffff) = true := by decide
theorem test_divu_again : runs (start [(1, 0xffffffffffffffff), (2, 0x2)]) 0x0220d1b3 (fun t => t.reg 3 == 0x7fffffffffffffff) = true := by decide
theorem test_rem : runs (start [(1, 0xfffffffffffffff9), (2, 0x2)]) 0x0220e1b3 (fun t => t.reg 3 == 0xffffffffffffffff) = true := by decide
theorem test_rem_again : runs (start [(1, 0x7), (2, 0x0)]) 0x0220e1b3 (fun t => t.reg 3 == 0x7) = true := by decide
theorem test_remu : runs (start [(1, 0x7), (2, 0x0)]) 0x0220f1b3 (fun t => t.reg 3 == 0x7) = true := by decide
theorem test_remu_again : runs (start [(1, 0xffffffffffffffff), (2, 0xa)]) 0x0220f1b3 (fun t => t.reg 3 == 0x5) = true := by decide
theorem test_mulw : runs (start [(1, 0x10000), (2, 0x8000)]) 0x022081bb (fun t => t.reg 3 == 0xffffffff80000000) = true := by decide
theorem test_divw : runs (start [(1, 0x80000000), (2, 0xffffffff)]) 0x0220c1bb (fun t => t.reg 3 == 0xffffffff80000000) = true := by decide
theorem test_divw_again : runs (start [(1, 0x5), (2, 0x0)]) 0x0220c1bb (fun t => t.reg 3 == 0xffffffffffffffff) = true := by decide
theorem test_divuw : runs (start [(1, 0x5), (2, 0x100000000)]) 0x0220d1bb (fun t => t.reg 3 == 0xffffffffffffffff) = true := by decide
theorem test_divuw_again : runs (start [(1, 0xffffffff), (2, 0x1)]) 0x0220d1bb (fun t => t.reg 3 == 0xffffffffffffffff) = true := by decide
theorem test_remw : runs (start [(1, 0xfffffff9), (2, 0x2)]) 0x0220e1bb (fun t => t.reg 3 == 0xffffffffffffffff) = true := by decide
theorem test_remw_again : runs (start [(1, 0x80000000), (2, 0xffffffff)]) 0x0220e1bb (fun t => t.reg 3 == 0x0) = true := by decide
theorem test_remuw : runs (start [(1, 0x80000005), (2, 0x0)]) 0x0220f1bb (fun t => t.reg 3 == 0xffffffff80000005) = true := by decide

/-! ## Control transfer (B5) -/

theorem test_jal : runs (start []) 0x008000ef (fun t => t.reg 1 == 0x80000004 && t.pc == 0x80000008) = true := by decide
theorem test_jal_again : runs (start []) 0xffdff06f (fun t => t.pc == 0x7ffffffc) = true := by decide
theorem test_jalr : runs (start [(1, 0x80000100)]) 0x004080e7 (fun t => t.reg 1 == 0x80000004 && t.pc == 0x80000104) = true := by decide
theorem test_jalr_again : runs (start [(6, 0x80000040)]) 0x001302e7 (fun t => t.reg 5 == 0x80000004 && t.pc == 0x80000040) = true := by decide
theorem test_beq : runs (start [(1, 0x3), (2, 0x3)]) 0x00208863 (fun t => t.pc == 0x80000010) = true := by decide
theorem test_bne : runs (start [(1, 0x3), (2, 0x3)]) 0x00209863 (fun t => t.pc == 0x80000004) = true := by decide
theorem test_blt : runs (start [(1, 0xffffffffffffffff), (2, 0x0)]) 0xfe20cce3 (fun t => t.pc == 0x7ffffff8) = true := by decide
theorem test_bltu : runs (start [(1, 0xffffffffffffffff), (2, 0x0)]) 0xfe20ece3 (fun t => t.pc == 0x80000004) = true := by decide
theorem test_bge : runs (start [(1, 0x5), (2, 0x5)]) 0x0020d463 (fun t => t.pc == 0x80000008) = true := by decide
theorem test_bgeu : runs (start [(1, 0xffffffffffffffff), (2, 0x1)]) 0x0020f463 (fun t => t.pc == 0x80000008) = true := by decide
theorem test_beq_again : runs (start []) 0x00000163 (fun t => t.reg 1 == 0x0 && t.reg 5 == 0x0 && trapped t 0) = true := by decide
theorem test_bne_again : runs (start []) 0x00001163 (fun t => t.pc == 0x80000004) = true := by decide
theorem test_lui : runs (start []) 0x800002b7 (fun t => t.reg 5 == 0xffffffff80000000 && t.pc == 0x80000004) = true := by decide
theorem test_auipc : runs (start []) 0x00001297 (fun t => t.reg 1 == 0x0 && t.reg 5 == 0x80001000 && t.pc == 0x80000004) = true := by decide
theorem test_auipc_again : runs (start []) 0x80000297 (fun t => t.reg 1 == 0x0 && t.reg 5 == 0x0 && t.pc == 0x80000004) = true := by decide

/-- The same interrupt after a jump (B5, last paragraph): the saved pc is the jump target minus 4. -/
theorem test_interrupt_after_jump :
    runs (((State.reset.setCsr Csr.mstatus 8).setCsr Csr.mie 0x80).setCsr Csr.mtvec 0x80000100) 0x0100006f
      (fun t => t.csrRaw Csr.mepc == 0x8000000c && t.pc == 0x80000100) = true := by decide

/-! ## Loads and stores (B6) -/

theorem test_lb : runs (dataAt (start [(2, 0x80001000)])) 0x00010283 (fun t => t.reg 5 == 0xffffffffffffff87) = true := by decide
theorem test_lbu : runs (dataAt (start [(2, 0x80001000)])) 0x00014283 (fun t => t.reg 5 == 0x87) = true := by decide
theorem test_lh : runs (dataAt (start [(2, 0x80001000)])) 0x00011283 (fun t => t.reg 5 == 0xffffffffffff8687) = true := by decide
theorem test_lhu : runs (dataAt (start [(2, 0x80001000)])) 0x00615283 (fun t => t.reg 5 == 0x8081) = true := by decide
theorem test_lw : runs (dataAt (start [(2, 0x80001000)])) 0x00412283 (fun t => t.reg 5 == 0xffffffff80818283) = true := by decide
theorem test_lwu : runs (dataAt (start [(2, 0x80001000)])) 0x00416283 (fun t => t.reg 5 == 0x80818283) = true := by decide
theorem test_ld : runs (dataAt (start [(2, 0x80001000)])) 0x00013283 (fun t => t.reg 5 == 0x8081828384858687) = true := by decide
theorem test_ld_again : runs (dataAt (start [(2, 0x80001000)])) 0x00113283 (fun t => t.reg 5 == 0x80818283848586) = true := by decide
theorem test_lw_again : runs (dataAt (start [])) 0x00002283 (fun t => t.reg 5 == 0x0 && trapped t 5) = true := by decide
theorem test_lh_again : runs (dataAt (start [(2, 0x10000000)])) 0x00011283 (fun t => t.reg 5 == 0x0 && trapped t 5) = true := by decide
theorem test_sb : runs (dataAt (start [(2, 0x80001000), (5, 0x1122334455667788)])) 0x00510023 (fun t => Memory.readLE t.mem 0x80001000 8 == 0x8081828384858688) = true := by decide
theorem test_sh : runs (dataAt (start [(2, 0x80001000), (5, 0x1122334455667788)])) 0x005110a3 (fun t => Memory.readLE t.mem 0x80001000 8 == 0x8081828384778887) = true := by decide
theorem test_sw : runs (dataAt (start [(2, 0x80001000), (5, 0x1122334455667788)])) 0x00512223 (fun t => Memory.readLE t.mem 0x80001000 8 == 0x5566778884858687) = true := by decide
theorem test_sd : runs (dataAt (start [(2, 0x80001000), (5, 0x1122334455667788)])) 0x00513023 (fun t => Memory.readLE t.mem 0x80001000 8 == 0x1122334455667788) = true := by decide
theorem test_sw_again : runs (dataAt (start [(5, 0x1)])) 0x00502023 (fun t => Memory.readLE t.mem 0x80001000 8 == 0x8081828384858687 && trapped t 7) = true := by decide

/-! ## CSR instructions (B7) -/

theorem test_csrrw : runs (withCsrs (start [(6, 0x1234)])) 0x340312f3 (fun t => t.reg 5 == 0xf0 && t.csrRaw Csr.mscratch == 0x1234) = true := by decide
theorem test_csrrs : runs (withCsrs (start [(6, 0xf)])) 0x340322f3 (fun t => t.reg 5 == 0xf0 && t.csrRaw Csr.mscratch == 0xff) = true := by decide
theorem test_csrrc : runs (withCsrs (start [(6, 0x30)])) 0x340332f3 (fun t => t.reg 5 == 0xf0 && t.csrRaw Csr.mscratch == 0xc0) = true := by decide
theorem test_csrrwi : runs (withCsrs (start [])) 0x340fd2f3 (fun t => t.reg 5 == 0xf0 && t.csrRaw Csr.mscratch == 0x1f) = true := by decide
theorem test_csrrsi : runs (withCsrs (start [])) 0x3400e2f3 (fun t => t.reg 5 == 0xf0 && t.csrRaw Csr.mscratch == 0xf1) = true := by decide
theorem test_csrrci : runs (withCsrs (start [])) 0x340872f3 (fun t => t.reg 5 == 0xf0 && t.csrRaw Csr.mscratch == 0xe0) = true := by decide
theorem test_csrrs_again : runs (withCsrs (start [])) 0x104022f3 (fun t => t.reg 5 == 0x0 && t.csrRaw Csr.mie == 0x888) = true := by decide
theorem test_csrrw_again : runs (withCsrs (start [(6, 0xffffffffffffffff)])) 0x104312f3 (fun t => t.reg 5 == 0x0 && t.csrRaw Csr.mie == 0xaaa) = true := by decide

theorem test_satp_write : runs (start [(7, 0x8000000000080010)]) 0x18039073
    (fun t => t.paging && t.ptRoot == 0x80010000) = true := by decide
theorem test_satp_write_reserved_mode : runs (start [(7, 0x9000000000080010)]) 0x18039073
    (fun t => !t.paging && t.ptRoot == 0x80010000 && t.csrRaw Csr.satp == 0x9000000000080010) = true := by decide

/-! ## Atomics (B8) -/

theorem test_amoswapW : runs (lockAt (start [(2, 0x80001000), (6, 0x100000002)])) 0x086122af (fun t => t.reg 5 == 0xffffffff80000001 && Memory.readLE t.mem 0x80001000 8 == 0x2) = true := by decide
theorem test_amoaddW : runs (lockAt (start [(2, 0x80001000), (6, 0x100000002)])) 0x006122af (fun t => t.reg 5 == 0xffffffff80000001 && Memory.readLE t.mem 0x80001000 8 == 0x80000003) = true := by decide
theorem test_amoxorW : runs (lockAt (start [(2, 0x80001000), (6, 0x100000002)])) 0x206122af (fun t => t.reg 5 == 0xffffffff80000001 && Memory.readLE t.mem 0x80001000 8 == 0x80000003) = true := by decide
theorem test_amoandW : runs (lockAt (start [(2, 0x80001000), (6, 0x100000002)])) 0x606122af (fun t => t.reg 5 == 0xffffffff80000001 && Memory.readLE t.mem 0x80001000 8 == 0x0) = true := by decide
theorem test_amoorW : runs (lockAt (start [(2, 0x80001000), (6, 0x100000002)])) 0x406122af (fun t => t.reg 5 == 0xffffffff80000001 && Memory.readLE t.mem 0x80001000 8 == 0x80000003) = true := by decide
theorem test_amominW : runs (lockAt (start [(2, 0x80001000), (6, 0x100000002)])) 0x806122af (fun t => t.reg 5 == 0xffffffff80000001 && Memory.readLE t.mem 0x80001000 8 == 0x80000001) = true := by decide
theorem test_amomaxW : runs (lockAt (start [(2, 0x80001000), (6, 0x100000002)])) 0xa06122af (fun t => t.reg 5 == 0xffffffff80000001 && Memory.readLE t.mem 0x80001000 8 == 0x2) = true := by decide
theorem test_amominuW : runs (lockAt (start [(2, 0x80001000), (6, 0x100000002)])) 0xc06122af (fun t => t.reg 5 == 0xffffffff80000001 && Memory.readLE t.mem 0x80001000 8 == 0x2) = true := by decide
theorem test_amomaxuW : runs (lockAt (start [(2, 0x80001000), (6, 0x100000002)])) 0xe06122af (fun t => t.reg 5 == 0xffffffff80000001 && Memory.readLE t.mem 0x80001000 8 == 0x80000001) = true := by decide
theorem test_amoswapD : runs (lockAt (start [(2, 0x80001000), (6, 0x100000002)])) 0x086132af (fun t => t.reg 5 == 0x80000001 && Memory.readLE t.mem 0x80001000 8 == 0x100000002) = true := by decide
theorem test_amoaddD : runs (lockAt (start [(2, 0x80001000), (6, 0x100000002)])) 0x006132af (fun t => t.reg 5 == 0x80000001 && Memory.readLE t.mem 0x80001000 8 == 0x180000003) = true := by decide
theorem test_amoxorD : runs (lockAt (start [(2, 0x80001000), (6, 0x100000002)])) 0x206132af (fun t => t.reg 5 == 0x80000001 && Memory.readLE t.mem 0x80001000 8 == 0x180000003) = true := by decide
theorem test_amoandD : runs (lockAt (start [(2, 0x80001000), (6, 0x100000002)])) 0x606132af (fun t => t.reg 5 == 0x80000001 && Memory.readLE t.mem 0x80001000 8 == 0x0) = true := by decide
theorem test_amoorD : runs (lockAt (start [(2, 0x80001000), (6, 0x100000002)])) 0x406132af (fun t => t.reg 5 == 0x80000001 && Memory.readLE t.mem 0x80001000 8 == 0x180000003) = true := by decide
theorem test_amominD : runs (lockAt (start [(2, 0x80001000), (6, 0x100000002)])) 0x806132af (fun t => t.reg 5 == 0x80000001 && Memory.readLE t.mem 0x80001000 8 == 0x80000001) = true := by decide
theorem test_amomaxD : runs (lockAt (start [(2, 0x80001000), (6, 0x100000002)])) 0xa06132af (fun t => t.reg 5 == 0x80000001 && Memory.readLE t.mem 0x80001000 8 == 0x100000002) = true := by decide
theorem test_amominuD : runs (lockAt (start [(2, 0x80001000), (6, 0x100000002)])) 0xc06132af (fun t => t.reg 5 == 0x80000001 && Memory.readLE t.mem 0x80001000 8 == 0x80000001) = true := by decide
theorem test_amomaxuD : runs (lockAt (start [(2, 0x80001000), (6, 0x100000002)])) 0xe06132af (fun t => t.reg 5 == 0x80000001 && Memory.readLE t.mem 0x80001000 8 == 0x100000002) = true := by decide
theorem test_amoaddW_again : runs (lockAt (start [(2, 0x80001002), (6, 0x1)])) 0x006122af (fun t => trapped t 6) = true := by decide
theorem test_lrW : runs (lockAt (start [(2, 0x80001000)])) 0x100122af (fun t => t.reg 5 == 0xffffffff80000001 && t.resv == some 0x80001000) = true := by decide
theorem test_lrD : runs (lockAt (start [(2, 0x80001004)])) 0x100132af (fun t => trapped t 4) = true := by decide
theorem test_scW : runs (lockAt (start [(2, 0x80001000), (6, 0x9)])) 0x186122af (fun t => t.reg 5 == 0x1 && Memory.readLE t.mem 0x80001000 8 == 0x80000001) = true := by decide
theorem test_scD_success : runs ((lockAt (start [(2, 0x80001000), (6, 9)])).setResv (some 0x80001000)) 0x186132af
    (fun t => t.reg 5 == 0 && t.resv == none && Memory.readLE t.mem 0x80001000 8 == 9) = true := by decide
theorem test_scD_other_address : runs ((lockAt (start [(2, 0x80001008), (6, 9)])).setResv (some 0x80001000)) 0x186132af
    (fun t => t.reg 5 == 1 && t.resv == none && Memory.readLE t.mem 0x80001000 8 == 0x80000001) = true := by decide

/-! ## System instructions (B9) -/

theorem test_ecall_machine : runs State.reset 0x00000073 (fun t => trapped t 11 && t.csrRaw Csr.mstatus == 0x1800) = true := by decide
theorem test_ecall_user : runs (State.reset.setMode .user) 0x00000073
    (fun t => trapped t 8 && t.csrRaw Csr.mstatus == 0) = true := by decide
theorem test_ecall_supervisor : runs (State.reset.setMode .supervisor) 0x00000073
    (fun t => trapped t 9 && t.csrRaw Csr.mstatus == 0x800) = true := by decide
theorem test_ebreak : runs State.reset 0x00100073 (fun t => trapped t 3) = true := by decide
theorem test_fence : runs State.reset 0x0ff0000f (fun t => t.pc == 0x80000004 && t.csrRaw Csr.mcause == 0) = true := by decide
theorem test_fence_tso : runs State.reset 0x8330000f (fun t => t.pc == 0x80000004 && t.csrRaw Csr.mcause == 0) = true := by decide
theorem test_fenceI : runs State.reset 0x0000100f (fun t => t.pc == 0x80000004 && t.csrRaw Csr.mcause == 0) = true := by decide
theorem test_wfi : runs State.reset 0x10500073 (fun t => t.pc == 0x80000004 && t.csrRaw Csr.mcause == 0) = true := by decide
theorem test_sfenceVma : runs State.reset 0x12000073 (fun t => t.pc == 0x80000004 && t.csrRaw Csr.mcause == 0) = true := by decide
theorem test_mret : runs ((State.reset.setCsr Csr.mstatus 0x880).setCsr Csr.mepc 0x80000200) 0x30200073
    (fun t => t.pc == 0x80000200 && t.mode == .supervisor && t.csrRaw Csr.mstatus == 0x88) = true := by decide
theorem test_mret_reserved_mode : step ((State.reset.setCsr Csr.mstatus 0x1000).withFetchWord 32 0x30200073) =
    .fault .mretReservedMode := by rfl
theorem test_sret : runs (((State.reset.setMode .supervisor).setCsr Csr.sstatus 0x20).setCsr Csr.sepc 0x80000300) 0x10200073
    (fun t => t.pc == 0x80000300 && t.mode == .user && t.csrRaw Csr.sstatus == 0x22) = true := by decide
theorem test_illegal_word : runs State.reset 0xffffffff (fun t => trapped t 2 && t.csrRaw Csr.mstatus == 0x1800) = true := by decide

/-! ## Traps and interrupts (A5, A6, B11); the instruction is a NOP -/

/-- The reset state with these CSRs set. -/
def csrs (l : List (CsrNum × Word)) : State := l.foldl (fun s p => s.setCsr p.1 p.2) State.reset

/-- `s` with a byte waiting to be announced. -/
def withConsoleFlag (s : State) : State := s.setUart { s.uart with intr := true }

theorem test_timer_vectored : runs (csrs [(Csr.mstatus, 8), (Csr.mie, 0x80), (Csr.mtvec, 0x80000101)]) 0x13
    (fun t => t.pc == 0x8000011c && t.csrRaw Csr.mcause == 0x8000000000000007 && t.csrRaw Csr.mepc == 0x80000000 &&
      t.csrRaw Csr.mstatus == 0x1880) = true := by decide
theorem test_exception_never_vectors : runs (csrs [(Csr.mtvec, 0x80000101)]) 0x73 (fun t => t.pc == 0x80000100) = true := by decide
theorem test_vector_keeps_bit1 : runs (csrs [(Csr.mtvec, 0x80000102)]) 0x73 (fun t => t.pc == 0x80000102) = true := by decide
theorem test_delegated_from_user :
    runs ((csrs [(Csr.medeleg, 4), (Csr.stvec, 0x80000200), (Csr.sstatus, 2)]).setMode .user) 0
      (fun t => t.mode == .supervisor && t.pc == 0x80000200 && t.csrRaw Csr.scause == 2 && t.csrRaw Csr.sepc == 0x80000000 &&
        t.csrRaw Csr.sstatus == 0x20 && t.csrRaw Csr.mcause == 0) = true := by decide
theorem test_not_delegated_from_machine : runs (csrs [(Csr.medeleg, 4), (Csr.stvec, 0x80000200), (Csr.mtvec, 0x80000300)]) 0
    (fun t => t.mode == .machine && t.pc == 0x80000300 && t.csrRaw Csr.mcause == 2) = true := by decide
theorem test_external_interrupt_delegated :
    runs (withConsoleFlag ((csrs [(Csr.mie, 0x200), (Csr.medeleg, 0x200), (Csr.stvec, 0x80000401)]).setMode .user)) 0x13
      (fun t => t.mode == .supervisor && t.pc == 0x80000424 && t.csrRaw Csr.scause == 0x8000000000000009 &&
        t.plic.sclaim == 10 && t.csrRaw Csr.mip == 0 && !t.uart.intr) = true := by decide
theorem test_mideleg_does_not_route :
    runs (withConsoleFlag ((csrs [(Csr.mie, 0x200), (Csr.mideleg, 0x200), (Csr.mtvec, 0x80000500)]).setMode .user)) 0x13
      (fun t => t.mode == .machine && t.pc == 0x80000500 && t.csrRaw Csr.mcause == 0x8000000000000009) = true := by decide
theorem test_external_before_software :
    runs (csrs [(Csr.mstatus, 8), (Csr.mie, 0x882), (Csr.mip, 0x802), (Csr.mtvec, 0x80000100)]) 0x13
      (fun t => t.csrRaw Csr.mcause == 0x800000000000000b && t.csrRaw Csr.mip == 2) = true := by decide
theorem test_no_poll_while_disabled : runs (withConsoleFlag (csrs [(Csr.mie, 0x200)])) 0x13
    (fun t => t.uart.intr && t.csrRaw Csr.mip == 0 && t.plic.sclaim == 0 && t.pc == 0x80000004) = true := by decide
theorem test_poll_without_enable : runs (withConsoleFlag (csrs [(Csr.mstatus, 8)])) 0x13
    (fun t => !t.uart.intr && t.csrRaw Csr.mip == 0x200 && t.plic.sclaim == 10 && t.pc == 0x80000004) = true := by decide
theorem test_supervisor_reads_its_own_enable : runs ((csrs [(Csr.mstatus, 8), (Csr.mie, 0x80)]).setMode .supervisor) 0x13
    (fun t => t.pc == 0x80000004) = true := by decide
theorem test_user_is_always_enabled : runs ((csrs [(Csr.mie, 0x80), (Csr.mtvec, 0x80000100)]).setMode .user) 0x13
    (fun t => t.mode == .machine && t.csrRaw Csr.mstatus == 0 && t.csrRaw Csr.mepc == 0x80000000) = true := by decide
theorem test_timer_not_due : runs ((csrs [(Csr.mstatus, 8), (Csr.mie, 0x80)]).setClint { mtime := 0, mtimecmp := 1 }) 0x13
    (fun t => t.pc == 0x80000004) = true := by decide

/-- The saved pc of an interrupt under `INTR_EPC = PC` (A5). -/
theorem test_interrupt_epc_pc :
    runs (State.setCsr (State.setCsr { State.reset with cfg := { Config.reference with intrEpc := .pc } } Csr.mstatus 8) Csr.mie 0x80)
      0x13 (fun t => t.csrRaw Csr.mepc == 0x80000004) = true := by decide

/-! ## Address translation (A9, B12) -/

/-- Sv39 on, with the root at 0x8001_0000. -/
def paged : State := State.reset.csrWrite Csr.satp 0x8000000000080010

/-- B12's three-level tables. -/
def threeLevels : State :=
  withDouble (withDouble (withDouble paged 0x80010000 0x20004401) 0x80011000 0x20004801) 0x80012008 0x2001000b

theorem test_translate_three_levels : translate threeLevels 0x1234 .fetch = .ok 0x80040234 := by decide
theorem test_translate_megapage :
    translate (withDouble threeLevels 0x80011000 0x20080003) 0x1234 .load = .ok 0x80201234 := by decide
theorem test_translate_gigapage : translate (withDouble paged 0x80010000 7) 0x1000 .store = .ok 0x1000 := by decide
theorem test_translate_invalid : translate (withDouble paged 0x80010000 6) 0x1000 .store = .error .storeAmoPageFault ∧
    translate paged 0x40000000 .fetch = .error .instructionPageFault := by decide
theorem test_translate_write_only : translate (withDouble paged 0x80010000 5) 0x1000 .load = .error .loadPageFault := by decide
theorem test_translate_levels_run_out :
    translate (withDouble threeLevels 0x80012008 0x20010001) 0x1234 .load = .error .loadPageFault := by decide
theorem test_translate_no_table :
    translate (State.reset.csrWrite Csr.satp 0x8000000000000000) 0x1234 .store = .error .storeAmoAccessFault := by decide

/-! ## Devices (A7, A8, B13) -/

/-- A load after a store at the same place gives this value. -/
def roundTrip (pa : Word) (n : Width) (v back : Word) : Bool :=
  match busStore State.reset pa n v .store with
  | .ok t => (busLoad t pa n .load).toOption.map Prod.fst == some back
  | .error _ => false

theorem test_timer_round_trip : roundTrip 0x02004000 .double 0x123456789abcdef0 0x123456789abcdef0 = true ∧
    roundTrip 0x0200BFF8 .double 0x42 0x42 = true := by decide
theorem test_interrupt_controller_round_trip : roundTrip 0x0C002080 .word 0x400 0x400 = true ∧
    roundTrip 0x0C201000 .word 7 7 = true ∧ roundTrip 0x0C201004 .word 10 10 = true ∧ roundTrip 0x0C001000 .word 2 2 = true ∧
    roundTrip 0x0C000000 .word 5 0 = true := by decide
theorem test_console_round_trip : roundTrip 0x10000007 .byte 0x5a 0x5a = true ∧ roundTrip 0x10000003 .byte 3 3 = true := by decide
theorem test_block_device_round_trip : roundTrip 0x10001028 .word 0x1000 0x1000 = true ∧
    roundTrip 0x10001040 .word 0x80010 0x80010 = true ∧ roundTrip 0x10001070 .word 15 15 = true ∧
    roundTrip 0x10001000 .word 0 0x74726976 = true := by decide
theorem test_console_output : runs (start [(5, 0x10000000), (6, 0x41)]) 0x00628023
    (fun t => t.out == [0x41] && t.uart == State.reset.uart) = true := by decide
theorem test_console_wrong_width : runs (start [(2, 0x10000000)]) 0x00512023 (fun t => trapped t 7) = true := by decide

/-- B13: a byte arrives, a second one waits, and reading RHR clears the data-ready bit. -/
theorem test_console_input : runs (State.reset.setInput [some 0x78, some 0x79]) 0x13
    (fun t => t.uart.reg 0 == 0x78 && t.uart.lsr == 0x21 && t.uart.intr && t.input == [some 0x79]) = true := by decide
theorem test_console_read :
    runs ((start [(1, 0x10000000)]).setUart { regs := [(0, 0x78), (5, 0x21)], intr := true }) 0x0000c183
      (fun t => t.reg 3 == 0x78 && t.uart.lsr == 0x20) = true := by decide

/-- "DISKDATA" and "NEWBYTES" as little-endian doublewords. -/
def diskdata : Word := 0x415441444B534944
def newbytes : Word := 0x534554594257454E

/-- The setup of R548: `kick` is written to queue_notify, `flags` to the data descriptor. -/
def diskSetup (flags : Word) : State :=
  let m := Memory.writeLE [] 0x80010000 8 0x80020000
  let m := Memory.writeLE m 0x8001000E 2 1
  let m := Memory.writeLE m 0x80010010 8 0x80021000
  let m := Memory.writeLE m 0x80010018 4 8
  let m := Memory.writeLE m 0x8001001C 2 flags
  let m := Memory.writeLE m 0x80010082 2 1
  let m := Memory.writeLE m 0x80020008 8 1
  let s := (State.reset.setMem m).setCsr Csr.mstatus 8
  { s with
    cfg := { s.cfg with diskSize := 1024 }
    disk := Memory.writeLE [] 512 8 diskdata
    virtio := { s.virtio with guestPageSize := 4096, queuePfn := 0x80010, queueNotify := 0 } }

theorem test_disk_read : runs (diskSetup 3) 0x13 (fun t =>
    Memory.readLE t.mem 0x80021000 8 == diskdata && Memory.readLE t.mem 0x80011002 2 == 1 && t.plic.sclaim == 1 &&
    t.csrRaw Csr.mip == 0x200 && t.virtio.queueNotify == 9999 && t.pc == 0x80000004) = true := by decide
theorem test_disk_write : runs (withDouble (diskSetup 1) 0x80021000 newbytes) 0x13 (fun t =>
    Memory.readLE t.disk 512 8 == newbytes && t.virtio.vioId == 1) = true := by decide

/-! ## Reset, stops and the loader (B14, 10_state.md R42, 00_scope.md R21) -/

theorem test_reset : State.reset.pc = 0x80000000 ∧ State.reset.mode = .machine ∧ State.reset.reg 2 = 0x88000000 ∧
    State.reset.uart.lsr = 0x20 ∧ State.reset.virtio.queueNotify = 9999 ∧ State.reset.resv = none := by decide
theorem test_halted_takes_no_step : step (State.reset.setHalted true) = .fault .halted := by rfl
theorem test_unwritten_register : step ((State.resetWith { Config.reference with resetGprZero := false }).withFetchWord 32 0x002081b3) =
    .fault .unwrittenRegister := by rfl
/-- Nothing but x2 written, without `RESET_GPR_ZERO`: the rules trap or complete before they come to `x[rs2]`
(48_atomic.md R414, R420). -/
def bare : State := State.resetWith { Config.reference with resetGprZero := false }

theorem test_scD_fails_without_reading : runs bare 0x186132af
    (fun t => t.reg 5 == 1 && t.resv == none && t.pc == 0x80000004) = true := by decide
theorem test_scD_reads_with_reservation :
    step ((bare.setResv (some 0x88000000)).withFetchWord 32 0x186132af) = .fault .unwrittenRegister := by rfl
theorem test_misaligned_amo_traps_without_reading : runs (bare.setReg 1 0x80000002) 0x0030a2af
    (fun t => trapped t 6) = true := by decide
theorem test_refused_amo_traps_without_reading : runs bare 0x003122af (fun t => trapped t 7) = true := by decide
theorem test_inadmissible : step { State.reset with cfg := { Config.reference with dramBase := 0 } } =
    .refused .inadmissibleParameters := by rfl
theorem test_first_word_is_illegal : (match step State.reset with | .next t => trapped t 2 | _ => false) = true := by decide
/-! ## Witnesses: for each statement with hypotheses, states and operands that meet them, clause by clause -/

theorem witness_DecodeOfEncode : (Instr.bne 31 0 0x1000).wellFormed false = true ∧
    (Instr.remuw 31 0 31).wellFormed true = true := by decide

theorem witness_EncodeOfDecode : decodeWord false 0xfe20cce3#32 = .ok (.blt 1 2 (BitVec.ofInt 13 (-8))) ∧
    decodeWord true 0x022081b3#32 = .ok (.mul 3 1 2) := by decide

/-- A word with a row, a word without one, and an RV64M word without RV64M. -/
theorem witness_DecoderFollowsOpcodeTable :
    opcodeTable.any (·.matchesWord 0x00000033#32) = true ∧ opcodeTable.any (·.matchesWord 0xffffffff#32) = false ∧
    { State.reset with cfg := { Config.reference with hasM := false } }.cfg.hasM = false ∧
    decodeWord true 0x022081b3#32 = .ok (.mul 3 1 2) ∧ (Instr.mul 3 1 2).isMulDiv = true ∧
    (Instr.add 3 1 2).isMulDiv = false := by decide

/-- Two bytes of DRAM. -/
def tiny : Config := { Config.reference with dramSize := 2 }

theorem witness_ResetAndLoadValues : tiny.dramSize < [1#8, 2, 3].length ∧ [1#8, 2].length ≤ tiny.dramSize ∧
    tiny.resetGprZero = true ∧ (1 : RegIdx) ≠ 2 := by decide

theorem witness_ResetMeetsInvariants : ∃ t, (State.resetWith tiny).load [1, 2] [3] = .next t := ⟨_, rfl⟩

/-- The last word of DRAM, holding `add x3, x1, x2`. -/
def atTheEnd : State := (State.reset.setPc 0x87FFFFFC).withFetchWord 32 0x002081b3

theorem witness_StepRunsDecodedInstruction :
    atTheEnd.cfg.admissible = true ∧ atTheEnd.halted = false ∧ atTheEnd = consoleSlot atTheEnd ∧
    translate atTheEnd atTheEnd.pc .fetch = .ok 0x87FFFFFC ∧ WordAt atTheEnd 0x87FFFFFC 0x002081b3 ∧
    decodeWord atTheEnd.cfg.hasM 0x002081b3#32 = .ok (.add 3 1 2) ∧
    (atTheEnd.setPc (atTheEnd.pc + 4)).sourcesReadable (.add 3 1 2) = true ∧ atTheEnd.input = [] :=
  ⟨rfl, rfl, rfl, rfl, .inl (by unfold InDram; decide), rfl, rfl, rfl⟩

/-- The pc at the interrupt controller's claim register, which holds `add x3, x1, x2`. -/
def atClaim : State := { State.reset with pc := 0x0C201004, plic := { State.reset.plic with sclaim := 0x002081b3 } }

/-- The pc at the block device's status register, which holds the same word. -/
def atStatus : State := { State.reset with pc := 0x10001070, virtio := { State.reset.virtio with status := 0x002081b3 } }

/-- Registers, and an offset without one, whose word 0 decodes to nothing. -/
theorem witness_StepRunsDecodedInstruction_registers :
    (consoleSlot atClaim = atClaim ∧ translate atClaim atClaim.pc .fetch = .ok 0x0C201004 ∧
      AtOffset atClaim.cfg.plic 0x201004 0x0C201004 ∧ RegisterAt (plicTable atClaim.plic) 0x201004 0x002081b3 ∧
      (atClaim.setPc (atClaim.pc + 4)).sourcesReadable (.add 3 1 2) = true) ∧
    (consoleSlot atStatus = atStatus ∧ translate atStatus atStatus.pc .fetch = .ok 0x10001070 ∧
      AtOffset atStatus.cfg.virtio 0x070 0x10001070 ∧ RegisterAt (virtioTable atStatus.virtio) 0x070 0x002081b3 ∧
      (atStatus.setPc (atStatus.pc + 4)).sourcesReadable (.add 3 1 2) = true) ∧
    RegisterAt (plicTable atClaim.plic) 0 0 ∧ RegisterAt (virtioTable atStatus.virtio) 0xFFC 0 := by
  unfold AtOffset RegisterAt; decide

theorem witness_FetchFaultIsDelivered :
    State.reset.cfg.admissible = true ∧
    consoleSlot (State.reset.setPc 0) = State.reset.setPc 0 ∧ (State.reset.setPc 0).halted = false ∧
    fetch (State.reset.setPc 0) = .error .instructionAccessFault ∧
    consoleSlot paged = paged ∧ paged.halted = false ∧ fetch paged = .error .instructionPageFault := by decide

/-- A fatal exception (no memory at the pc) and another (the zero word). -/
theorem witness_NoInterruptAfterException :
    State.reset.halted = false ∧ Exc.instructionAccessFault.fatal = true ∧ Exc.illegalInstruction.fatal = false ∧
    phaseA (consoleSlot (State.reset.setPc 0)) = .next (((State.reset.setPc 0).setPc 4).deliver .instructionAccessFault) ∧
    phaseA (consoleSlot State.reset) = .next ((State.reset.setPc 0x80000004).deliver .illegalInstruction) :=
  ⟨rfl, rfl, rfl, rfl, rfl⟩

/-- A register that is not written, without `RESET_GPR_ZERO`. -/
def unwritten : State := (State.resetWith { Config.reference with resetGprZero := false }).withFetchWord 32 0x002081b3

/-- Inadmissible, halted, unwritten, MPP = 2, and a disk range past the end. -/
theorem witness_StepStopsOnlyWhere :
    { State.reset with cfg := { Config.reference with dramBase := 0 } }.cfg.admissible = false ∧
    (State.reset.setHalted true).halted = true ∧
    (unwritten.cfg.admissible = true ∧ unwritten.halted = false ∧ unwritten.cfg.resetGprZero = false ∧
      fetch unwritten = .ok 0x002081b3 ∧ decodeWord unwritten.cfg.hasM 0x002081b3#32 = .ok (.add 3 1 2) ∧
      (1 : RegIdx) ∈ sources (.add 3 1 2) (unwritten.setPc (unwritten.pc + 4)) ∧ unwritten.isWritten 1 = false) ∧
    (match step ((State.reset.setCsr Csr.mstatus 0x1000).withFetchWord 32 0x30200073) with
      | .fault .mretReservedMode => true | _ => false) = true ∧
    (match step { (diskSetup 3).withFetchWord 32 0x13 with cfg := { Config.reference with diskSize := 519 } } with
      | .fault (.virtioRange _) => true | _ => false) = true := by decide

/-- A register outside the sources, for a jump, a store and a CSR instruction; a store whose address does not translate and
one whose does; a misaligned atomic; SC with, without and with another reservation; an AMO whose bus read fails and one
whose does not; and an MRET that stops. -/
theorem witness_UnreadRegistersDoNotMatter :
    let s := (start [(1, 0x80000002), (3, 0x80001000)]).setResv (some 0x80001000)
    ((5 : RegIdx) ∉ sources (.jal 5 8) s ∧ (5 : RegIdx) ∉ sources (.sd 3 2 0) s ∧ (5 : RegIdx) ∉ sources (.csrrw 5 3 0x340) s) ∧
    (EffectiveAddress paged 2 0 0x88000000 ∧ translate paged 0x88000000 .store = .error .storeAmoPageFault ∧
      (5 : RegIdx) ∉ sources (.sd 2 5 0) paged) ∧
    (EffectiveAddress s 3 0 0x80001000 ∧ translate s 0x80001000 .store = .ok 0x80001000) ∧
    ((s.reg 1).toNat % Width.word.bytes ≠ 0 ∧ (5 : RegIdx) ∉ sources (.amoaddW 6 1 5 false false) s) ∧
    (translate paged (paged.reg 2) .store = .error .storeAmoPageFault) ∧
    ((s.reg 3).toNat % Width.double.bytes = 0 ∧ translate s (s.reg 3) .store = .ok 0x80001000 ∧
      isReservation (.scD 6 3 5 false false) = true ∧ s.resv = some 0x80001000) ∧
    (State.reset.resv = none ∧ (s.setResv (some 0x80001008)).resv ≠ some 0x80001000 ∧
      (5 : RegIdx) ∉ sources (.scD 6 3 5 false false) (s.setResv none)) ∧
    (isReservation (.amoaddW 6 2 5 false false) = false ∧ translate s (s.reg 2) .store = .ok 0x88000000 ∧
      busLoad s 0x88000000 .word .store = .error .storeAmoAccessFault ∧
      (5 : RegIdx) ∉ sources (.amoaddW 6 2 5 false false) s) ∧
    busLoad s 0x80001000 .word .store = .ok (0, s) ∧
    (match exec (.mret 0 0) (State.reset.setCsr Csr.mstatus 0x1000) with | .fault _ => true | _ => false) = true := by
  unfold EffectiveAddress; decide

/-- In Machine mode, and delegated to Supervisor mode. -/
theorem witness_HaltsOnlyOnFatalCause :
    (match step (State.reset.setPc 0) with
      | .next t => t.halted && t.mode == .machine && t.csrRaw Csr.mcause == 1 | _ => false) = true ∧
    (match step (((csrs [(Csr.medeleg, 2)]).setMode .user).setPc 0) with
      | .next t => t.halted && t.mode == .supervisor && t.csrRaw Csr.scause == 1 | _ => false) = true := by decide

theorem witness_OnlyTheirClassWrites :
    (∃ t, exec (.sb 2 3 (-1)) State.reset = .next t) ∧ (∃ t, exec (.addi 5 1 7) State.reset = .next t) ∧
    (∃ t, exec (.ebreak 0 0) State.reset = .next t) ∧ isTrapReturn (.addi 5 1 7) = false ∧
    isJumpOrBranch (.addi 5 1 7) = false ∧ isReservation (.addi 5 1 7) = false ∧ isCsrInstr (.addi 5 1 7) = false ∧
    isStoring (.addi 5 1 7) = false ∧ isLoad (.addi 5 1 7) = false ∧ destination (.addi 5 1 7) ≠ some 6 ∧
    destination (.sb 2 3 (-1)) ≠ some 2 :=
  ⟨⟨_, rfl⟩, ⟨_, rfl⟩, ⟨_, rfl⟩, rfl, rfl, rfl, rfl, rfl, rfl, by decide, by decide⟩

theorem witness_ModeIsNotLookedAt : isTrapReturn (.mret 0 0) = true ∧ isEcall (.lw 5 2 0) = false ∧
    isTrapReturn (.lw 5 2 0) = false := by decide

/-- `diskSetup` with its transfer inside the disk, and past its end. -/
theorem witness_GlobalEnableGatesTheCheck :
    bit (State.reset.csrRaw Csr.mstatus) 3 = 0 ∧ bit ((diskSetup 3).csrRaw Csr.mstatus) 3 ≠ 0 ∧
    (match pollDevices (diskSetup 3) with | .ok _ => true | _ => false) = true ∧
    (match pollDevices { diskSetup 3 with cfg := Config.reference } with
      | .error (.virtioRange _) => true | _ => false) = true := by decide

theorem witness_DevicePoll :
    (withConsoleFlag State.reset).uart.intr = true ∧
    (diskSetup 3).uart.intr = false ∧ (diskSetup 3).virtio.queueNotify ≠ (diskSetup 3).cfg.virtioNotifyIdle ∧
    (match diskAccess ((diskSetup 3).setVirtio { (diskSetup 3).virtio with queueNotify := 9999 }) with
      | .ok _ => true | _ => false) = true ∧
    (match diskAccess { (diskSetup 3).setVirtio { (diskSetup 3).virtio with queueNotify := 9999 } with
        cfg := Config.reference } with
      | .error _ => true | _ => false) = true ∧
    State.reset.uart.intr = false ∧ State.reset.virtio.queueNotify = State.reset.cfg.virtioNotifyIdle := by decide

/-- None; the first of the order; the last; and 7 by the timer alone, before 9. -/
theorem witness_SelectsByPriority :
    (∀ b ∈ [11, 3, 7, 9, 1, 5], ¬PendingEnabled State.reset b) ∧
    PendingEnabled (csrs [(Csr.mie, 0x802), (Csr.mip, 0x802)]) 11 ∧
    ((∀ b ∈ [11, 3, 7, 9, 1], ¬PendingEnabled (csrs [(Csr.mie, 0x20), (Csr.mip, 0xAAA)]) b) ∧
      PendingEnabled (csrs [(Csr.mie, 0x20), (Csr.mip, 0xAAA)]) 5) ∧
    ((∀ b ∈ [11, 3], ¬PendingEnabled (csrs [(Csr.mie, 0x280), (Csr.mip, 0x200)]) b) ∧
      PendingEnabled (csrs [(Csr.mie, 0x280), (Csr.mip, 0x200)]) 7) := by
  unfold PendingEnabled; decide

theorem witness_ConsoleInputWaitsForTheReader :
    (State.reset.setInput [some 0x78, none]).input = some 0x78 :: [none] ∧
    ((State.reset.setInput [some 0x78, none]).uart.reg 5).getLsbD 0 = false ∧
    ((State.reset.setUart { regs := [(5, 0x21)], intr := false }).uart.reg 5).getLsbD 0 = true := by decide

/-! ### The bus and translation -/

/-- The first byte, the last doubleword, one byte further, and the first address past the end. -/
theorem witness_DramAccess :
    Config.reference.admissible = true ∧ Config.reference.dramBase ≤ (0x80000000#64).toNat ∧
    (0x87FFFFF8#64).toNat + Width.double.bytes ≤ Config.reference.dramBase + Config.reference.dramSize ∧
    Config.reference.dramBase + Config.reference.dramSize < (0x87FFFFF9#64).toNat + Width.double.bytes ∧
    Config.reference.dramBase + Config.reference.dramSize < (0x88000000#64).toNat + Width.byte.bytes := by decide

/-- The first and the last address of each window with the device's width, and the first and the last bytes of DRAM. -/
theorem witness_BusRefusals_accepted :
    ∀ p ∈ [(0x02000000, Width.double), (0x0200FFFF, .double), (0x0C000000, .word), (0x0FFFFFFF, .word), (0x10000000, .byte),
      (0x100000FF, .byte), (0x10001000, .word), (0x10001FFF, .word), (0x80000000, .double), (0x87FFFFF8, .double),
      (0x87FFFFFF, .byte)], ¬Refused Config.reference p.1 p.2 := by
  unfold Refused InWindow; decide

/-- The same windows with another width, one byte past the end of DRAM, and unmapped addresses between the windows. -/
theorem witness_BusRefusals_refused :
    ∀ p ∈ [(0x02000000, Width.word), (0x0200FFFF, .byte), (0x0C000000, .double), (0x0FFFFFFF, .half), (0x10000000, .word),
      (0x100000FF, .half), (0x10001000, .double), (0x10001FFF, .byte), (0x87FFFFF9, .double), (0x88000000, .byte),
      (0, .byte), (0x7FFFFFFF, .double), (0x02010000, .double), (0x10000100, .byte)],
      Refused Config.reference p.1 p.2 := by
  unfold Refused InWindow; decide

/-- Offsets without a register. -/
theorem witness_BusRefusals_unassigned :
    Config.reference.admissible = true ∧ AtOffset Config.reference.clint 0xFFFF 0x0200FFFF ∧
    AtOffset Config.reference.plic 0 0x0C000000 ∧ (0 : Nat) ∉ (plicTable State.reset.plic).map Prod.fst ∧
    AtOffset Config.reference.virtio 0x014 0x10001014 ∧ (0x014 : Nat) ∉ (virtioTable State.reset.virtio).map Prod.fst := by
  unfold AtOffset; decide

theorem witness_TimerAndInterruptControllerRegisters :
    AtOffset Config.reference.clint 0x4000 0x02004000 ∧ AtOffset Config.reference.clint 0xBFF8 0x0200BFF8 ∧
    AtOffset Config.reference.clint 0xFFFF 0x0200FFFF ∧ AtOffset Config.reference.plic 0x1000 0x0C001000 ∧
    AtOffset Config.reference.plic 0x2080 0x0C002080 ∧ AtOffset Config.reference.plic 0x201000 0x0C201000 ∧
    AtOffset Config.reference.plic 0x201004 0x0C201004 ∧ AtOffset Config.reference.plic 0x3FFFFFF 0x0FFFFFFF := by
  unfold AtOffset; decide

/-- Every offset of the statement's lists, the last address, and two different registers. -/
theorem witness_BlockDeviceRegisters :
    (∀ off ∈ [0x000, 0x004, 0x008, 0x00C, 0x010, 0x034, 0x020, 0x028, 0x030, 0x038, 0x040, 0x050, 0x070, 0x074, 0xFFF],
      AtOffset Config.reference.virtio off (BitVec.ofNat 64 (0x10001000 + off))) ∧
    (0x074 : Nat) ∉ [0x000, 0x004, 0x008, 0x00C, 0x010, 0x020, 0x028, 0x030, 0x034, 0x038, 0x040, 0x050, 0x070] := by
  unfold AtOffset; decide

theorem witness_ConsoleRegisters : AtOffset Config.reference.uart 0 0x10000000 ∧
    AtOffset Config.reference.uart 1 0x10000001 ∧ AtOffset Config.reference.uart 0xFF 0x100000FF := by
  unfold AtOffset; decide

/-- With the data-ready bit set, a load of RHR succeeds and changes the state. -/
theorem witness_LoadsAreHarmless :
    (match busLoad (State.reset.setUart { regs := [(0, 0x78), (5, 0x21)], intr := true }) 0x10000000 .byte .load with
      | .ok (v, s') => v == 0x78 && s' != State.reset.setUart { regs := [(0, 0x78), (5, 0x21)], intr := true }
      | _ => false) = true ∧
    busLoad State.reset 0x80000000 .double .load = .ok (0, State.reset) := by decide

/-- Paging off; a page fault; two addresses that differ above bit 38; a translation that succeeds. -/
theorem witness_TranslationDependsOn :
    State.reset.paging = false ∧ translate paged 0 .load = .error .loadPageFault ∧ threeLevels.paging = true ∧
    (0x1234#64).toNat % 2 ^ 39 = (0xffffff8000001234#64).toNat % 2 ^ 39 ∧
    translate threeLevels 0x1234 .fetch = .ok 0x80040234 := by decide

/-- At levels 2, 1 and 0: a table outside memory, an invalid entry, W without R, a leaf (also with X alone), a pointer to
the next table, and a pointer at the last level. -/
theorem witness_WalkLevel :
    paged.paging = true ∧
    (∀ i ∈ [0, 1, 2], i < 3 ∧
      (0x80010000#64).toNat = ((0x80010000#64).toNat + 8 * ((0#64).toNat / 2 ^ (12 + 9 * i) % 512)) % 2 ^ 64) ∧
    (0#64).toNat = ((0xfffffffffffff008#64).toNat + 8 * ((0x1ff000#64).toNat / 2 ^ (12 + 9 * 0) % 512)) % 2 ^ 64 ∧
    busLoad paged 0 .double .load = .error .loadAccessFault ∧
    busLoad paged 0x80010000 .double .load = .ok (0, paged) ∧ bit 0 0 = 0 ∧
    busLoad (withDouble paged 0x80010000 5) 0x80010000 .double .load = .ok (5, withDouble paged 0x80010000 5) ∧
    bit 5 1 = 0 ∧ bit 5 2 = 1 ∧
    busLoad (withDouble paged 0x80010000 7) 0x80010000 .double .load = .ok (7, withDouble paged 0x80010000 7) ∧
    bit 7 0 = 1 ∧ bit 7 1 = 1 ∧
    busLoad (withDouble paged 0x80010000 9) 0x80010000 .double .load = .ok (9, withDouble paged 0x80010000 9) ∧
    bit 9 0 = 1 ∧ bit 9 2 = 0 ∧ bit 9 3 = 1 ∧
    busLoad threeLevels 0x80010000 .double .load = .ok (0x20004401, threeLevels) ∧ bit 0x20004401 0 = 1 ∧
    bit 0x20004401 1 = 0 ∧ bit 0x20004401 2 = 0 ∧ bit 0x20004401 3 = 0 ∧
    (0x80011000#64).toNat = (0x20004401#64).toNat / 2 ^ 10 % 2 ^ 44 * threeLevels.cfg.pageSize % 2 ^ 64 := by decide

/-! ### Instructions -/

/-- An ordinary division, a zero divisor, and overflow. -/
theorem witness_DivisionLaws :
    ((3#64) ≠ 0 ∧ ¬(7#64 = BitVec.intMin 64 ∧ 3#64 = BitVec.allOnes 64)) ∧ (0#32 = 0) ∧
    (0x80000000#32 = BitVec.intMin 32 ∧ 0xffffffff#32 = BitVec.allOnes 32) ∧
    (0x8000000000000000#64 = BitVec.intMin 64 ∧ 0xffffffffffffffff#64 = BitVec.allOnes 64) := by decide

/-- Targets that are a multiple of 4 and that are not; JALR clears bit 0; the pc wraps. -/
theorem witness_Jumps :
    RelativeTarget State.reset.advance (0x000FFFFC#21).toInt 0x800FFFFC ∧ (0x800FFFFC#64).toNat % 4 = 0 ∧
    RelativeTarget State.reset.advance (2#21).toInt 0x80000002 ∧ (0x80000002#64).toNat % 4 ≠ 0 ∧
    RelativeTarget (State.reset.setPc 4) (-4#21).toInt 0xfffffffffffffffc ∧
    EffectiveAddress (start [(1, 0x80000004)]) 1 1 0x80000005 ∧
    (0x80000004#64).toNat = (0x80000005#64).toNat / 2 * 2 ∧ (0x80000004#64).toNat % 4 = 0 ∧
    EffectiveAddress (start [(1, 0x80000004)]) 1 (-1) 0x80000003 ∧
    (0x80000002#64).toNat = (0x80000003#64).toNat / 2 * 2 := by
  unfold RelativeTarget EffectiveAddress; decide

/-- Each condition met and not met, and both kinds of target. -/
theorem witness_Branches :
    let s := start [(1, 0xffffffffffffffff), (2, 1), (3, 1)]
    s.reg 2 = s.reg 3 ∧ ¬(s.reg 1 = s.reg 2) ∧ s.reg 1 ≠ s.reg 2 ∧ ¬(s.reg 2 ≠ s.reg 3) ∧
    (s.reg 1).toInt < (s.reg 2).toInt ∧ ¬((s.reg 2).toInt < (s.reg 3).toInt) ∧
    (s.reg 2).toInt ≥ (s.reg 3).toInt ∧ ¬((s.reg 1).toInt ≥ (s.reg 2).toInt) ∧
    (s.reg 2).toNat < (s.reg 1).toNat ∧ ¬((s.reg 1).toNat < (s.reg 2).toNat) ∧
    (s.reg 1).toNat ≥ (s.reg 2).toNat ∧ ¬((s.reg 2).toNat ≥ (s.reg 1).toNat) ∧
    RelativeTarget s.advance (0x1000#13).toInt 0x7FFFF000 ∧ (0x7FFFF000#64).toNat % 4 = 0 ∧
    RelativeTarget s.advance (0x0FFE#13).toInt 0x80000FFE ∧ (0x80000FFE#64).toNat % 4 ≠ 0 := by
  unfold RelativeTarget; decide

/-- The last byte of DRAM for LB, the last doubleword for LD. -/
theorem witness_LoadsFromDram :
    State.reset.cfg.admissible = true ∧ EffectiveAddress State.reset 2 (-1) 0x87FFFFFF ∧
    translate State.reset 0x87FFFFFF .load = .ok 0x87FFFFFF ∧ InDram State.reset 0x87FFFFFF Width.byte.bytes ∧
    EffectiveAddress State.reset 2 (-8) 0x87FFFFF8 ∧
    translate State.reset 0x87FFFFF8 .load = .ok 0x87FFFFF8 ∧ InDram State.reset 0x87FFFFF8 Width.double.bytes := by
  unfold EffectiveAddress InDram; decide

/-- A translation fault, a bus fault, and the last byte of the console's window. -/
theorem witness_LoadsFromBus :
    EffectiveAddress paged 2 0 0x88000000 ∧ translate paged 0x88000000 .load = .error .loadPageFault ∧
    EffectiveAddress State.reset 0 (-1) 0xffffffffffffffff ∧
    translate State.reset 0xffffffffffffffff .load = .ok 0xffffffffffffffff ∧
    busLoad State.reset 0xffffffffffffffff .byte .load = .error .loadAccessFault ∧
    EffectiveAddress (start [(1, 0x10000000)]) 1 0xFF 0x100000FF ∧
    (busLoad State.reset 0x100000FF .byte .load).toOption.map Prod.fst = some 0 := by
  unfold EffectiveAddress; decide

theorem witness_StoresToDram :
    State.reset.cfg.admissible = true ∧ EffectiveAddress State.reset 2 (-1) 0x87FFFFFF ∧
    translate State.reset 0x87FFFFFF .store = .ok 0x87FFFFFF ∧ InDram State.reset 0x87FFFFFF Width.byte.bytes ∧
    EffectiveAddress State.reset 2 (-8) 0x87FFFFF8 ∧
    translate State.reset 0x87FFFFF8 .store = .ok 0x87FFFFF8 ∧ InDram State.reset 0x87FFFFF8 Width.double.bytes := by
  unfold EffectiveAddress InDram; decide

theorem witness_StoresToBus :
    EffectiveAddress paged 2 0 0x88000000 ∧ translate paged 0x88000000 .store = .error .storeAmoPageFault ∧
    EffectiveAddress State.reset 0 (-1) 0xffffffffffffffff ∧
    translate State.reset 0xffffffffffffffff .store = .ok 0xffffffffffffffff ∧
    busStore State.reset 0xffffffffffffffff .byte 0 .store = .error .storeAmoAccessFault ∧
    EffectiveAddress (start [(1, 0x10001000)]) 1 0x50 0x10001050 ∧
    (busStore State.reset 0x10001050 .word 0 .store).toOption.isSome = true := by
  unfold EffectiveAddress; decide

theorem witness_EnvironmentCallAndBreakpoint : (State.reset.setMode .user).mode = .user ∧
    (State.reset.setMode .supervisor).mode = .supervisor ∧ State.reset.mode = .machine := by decide

/-- MPP = 0, 1, 3 and the reserved 2. -/
theorem witness_TrapReturns :
    (State.reset.csrRaw Csr.mstatus).toNat / 2 ^ 11 % 4 = 0 ∧
    ((csrs [(Csr.mstatus, 0x800)]).csrRaw Csr.mstatus).toNat / 2 ^ 11 % 4 = 1 ∧
    ((csrs [(Csr.mstatus, 0x1800)]).csrRaw Csr.mstatus).toNat / 2 ^ 11 % 4 = 3 ∧
    ((csrs [(Csr.mstatus, 0x1000)]).csrRaw Csr.mstatus).toNat / 2 ^ 11 % 4 = 2 := by decide

theorem witness_CsrInstructions : (0 : CsrNum) ≠ 0x104 ∧ (0 : CsrNum) ≠ 0x180 ∧ (0xFFF : CsrNum) ≠ 0x104 ∧
    (0xFFF : CsrNum) ≠ 0x180 := by decide

/-- Misaligned; a translation fault; a bus fault; and a load that succeeds, in DRAM and from a device. -/
theorem witness_LoadReservedInstructions :
    ((start [(1, 0x80000002)]).reg 1).toNat % Width.word.bytes ≠ 0 ∧
    ((start [(1, 0x80000004)]).reg 1).toNat % Width.double.bytes ≠ 0 ∧
    (State.reset.reg 2).toNat % Width.double.bytes = 0 ∧
    translate paged (paged.reg 2) .load = .error .loadPageFault ∧
    translate State.reset (State.reset.reg 2) .load = .ok 0x88000000 ∧
    busLoad State.reset 0x88000000 .word .load = .error .loadAccessFault ∧
    busLoad State.reset 0x87FFFFF8 .double .load = .ok (0, State.reset) ∧
    busLoad State.reset 0x10001000 .word .load = .ok (0x74726976, State.reset) := by decide

/-- With the reservation, in DRAM and on a device; without one; and with one elsewhere. -/
theorem witness_StoreConditionalInstructions :
    let s := (start [(1, 0x87FFFFF8)]).setResv (some 0x87FFFFF8)
    s.cfg.admissible = true ∧ translate s (s.reg 1) .store = .ok 0x87FFFFF8 ∧
    (s.reg 1).toNat % Width.double.bytes = 0 ∧ (s.reg 1).toNat % Width.word.bytes = 0 ∧
    s.resv = some 0x87FFFFF8 ∧ InDram s 0x87FFFFF8 Width.double.bytes ∧
    (busStore s 0x10001050 .word 1 .store).toOption.isSome = true ∧
    State.reset.resv ≠ some 0x87FFFFF8 ∧ s.resv ≠ some 0x87FFFFF0 := by
  unfold InDram; decide

theorem witness_StoringAtomicsTrap :
    ((start [(1, 0x80000002)]).reg 1).toNat % Width.word.bytes ≠ 0 ∧
    (paged.reg 2).toNat % Width.double.bytes = 0 ∧
    translate paged (paged.reg 2) .store = .error .storeAmoPageFault ∧
    translate State.reset (State.reset.reg 2) .store = .ok 0x88000000 ∧
    busLoad State.reset 0x88000000 .word .store = .error .storeAmoAccessFault ∧
    isReservation (.amoaddW 1 2 3 false false) = false ∧ isReservation (.scW 1 2 3 false false) = true ∧
    (State.reset.setResv (some 0x88000000)).resv = some 0x88000000 := by decide

/-- The last word of DRAM, and a word register of a device. -/
theorem witness_AmosOnWords :
    let s := start [(1, 0x87FFFFFC), (3, 0x0C201004)]
    s.cfg.admissible = true ∧ (s.reg 1).toNat % 4 = 0 ∧ translate s (s.reg 1) .store = .ok 0x87FFFFFC ∧
    InDram s 0x87FFFFFC 4 ∧ (s.reg 3).toNat % 4 = 0 ∧ translate s (s.reg 3) .store = .ok 0x0C201004 ∧
    busLoad s 0x0C201004 .word .store = .ok (0, s) := by
  unfold InDram; decide

/-- The last doubleword of DRAM, and `mtime`. -/
theorem witness_AmosOnDoublewords :
    let s := start [(1, 0x87FFFFF8), (3, 0x0200BFF8)]
    s.cfg.admissible = true ∧ (s.reg 1).toNat % 8 = 0 ∧ translate s (s.reg 1) .store = .ok 0x87FFFFF8 ∧
    InDram s 0x87FFFFF8 8 ∧ (s.reg 3).toNat % 8 = 0 ∧ translate s (s.reg 3) .store = .ok 0x0200BFF8 ∧
    busLoad s 0x0200BFF8 .double .store = .ok (0, s) := by
  unfold InDram; decide

/-! ### The block device -/

/-- The setup of R548. -/
theorem witness_DiskRequestFields :
    let s := diskSetup 3
    s.cfg.admissible = true ∧
    0x80010000 = s.virtio.queuePfn.toNat * s.virtio.guestPageSize.toNat % 2 ^ 64 ∧
    0x80010082 = (0x80010000 + 0x80 + 2) % 2 ^ 64 ∧ InDram s 0x80010082 2 ∧ 1 = littleEndian s 0x80010082 2 ∧
    0x80010084 = (0x80010000 + 0x80 + 4 + 2 * ((1 + 7) % 8)) % 2 ^ 64 ∧ InDram s 0x80010084 2 ∧
    0 = littleEndian s 0x80010084 2 ∧ 0x80010000 = (0x80010000 + 16 * 0) % 2 ^ 64 ∧ InDram s 0x80010000 16 ∧
    0x80020000 = littleEndian s 0x80010000 8 ∧
    0x80010010 = (0x80010000 + 16 * littleEndian s (0x80010000 + 14) 2) % 2 ^ 64 ∧ InDram s 0x80010010 16 ∧
    InDram s ((0x80020000 + 8) % 2 ^ 64) 8 := by
  unfold InDram; decide

theorem witness_DiskCopies : State.reset.cfg.admissible = true ∧ InDram State.reset (0x87FFFFF0#64).toNat 16 ∧
    InDram State.reset (0x88000000#64).toNat 0 := by
  unfold InDram; decide

/-- The request of `diskSetup`. -/
def request (toDisk : Bool) : DiskRequest := { buf := 0x80021000, len := 8, toDisk := toDisk, sector := 1 }

/-- A range that ends with the disk, one that passes it by a byte, a copy that the bus refuses, one that works, and both
outcomes of the write of `used.idx`. -/
theorem witness_DiskAccessOutcome :
    let s := diskSetup 3
    let short := { s with cfg := { s.cfg with diskSize := 519 } }
    let noUsed := { s with cfg := { s.cfg with dramBase := 0x80000000, dramSize := 0x11000 } }
    readRequest s = .ok (request false, s) ∧
    (0x80011000#64).toNat =
      (s.virtio.queuePfn.toNat * s.virtio.guestPageSize.toNat + s.virtio.guestPageSize.toNat) % 2 ^ 64 ∧
    readRequest short = .ok (request false, short) ∧ short.cfg.diskSize < 1 * 512 + 8 ∧
    1 * 512 + 8 ≤ { s with cfg := { s.cfg with diskSize := 520 } }.cfg.diskSize ∧
    (match copyBytes false 0x87FFFFFF 512 8 s with | .error (.virtioBus _) => true | _ => false) = true ∧
    (match copyBytes false 0x80021000 512 8 s with
      | .ok t => (busStore t 0x80011002 .half 1 .store).toOption.isSome | _ => false) = true ∧
    busStore noUsed 0x80011002 .half 1 .store = .error .storeAmoAccessFault := by decide

/-- `diskSetup` with the rings, and with the header, outside memory. -/
theorem witness_DiskAccessOutcome_refused :
    let s := diskSetup 3
    let v := s.virtio
    RequestRead (s.setVirtio { v with queuePfn := 0 }) (descriptors (s.setVirtio { v with queuePfn := 0 }) + 0x82) .half ∧
    busLoad (s.setVirtio { v with queuePfn := 0 }) (descriptors (s.setVirtio { v with queuePfn := 0 }) + 0x82) .half .load =
      .error .loadAccessFault ∧
    (let header := withDouble s 0x80010000 0x1000
     RequestHead header 0 ∧ RequestRead header (0x1000 + 8) .double ∧
     busLoad header (0x1000 + 8) .double .load = .error .loadAccessFault) :=
  ⟨.index, rfl, ⟨1, ⟨_, rfl⟩, ⟨_, rfl⟩⟩, .sector (h := 0) ⟨1, ⟨_, rfl⟩, ⟨_, rfl⟩⟩ ⟨_, rfl⟩, rfl⟩

/-- In `diskSetup` every read of the request succeeds. -/
theorem witness_DiskAccessOutcome_readable :
    ∀ a n, RequestRead (diskSetup 3) a n → ∃ x, Reads (diskSetup 3) a n x := by
  have key : ∀ {a n x y}, busLoad (diskSetup 3) a n .load = .ok y → Reads (diskSetup 3) a n x → x = y.1 := by
    rintro a n x y h ⟨s', h'⟩
    rw [h'] at h
    cases h
    rfl
  have head : ∀ {h}, RequestHead (diskSetup 3) h → h = 0 := by
    rintro h ⟨idx, hi, hh⟩
    obtain rfl : idx = 1 := key (y := (1, diskSetup 3)) rfl hi
    exact key (y := (0, diskSetup 3)) rfl hh
  intro a n h
  cases h with
  | index => exact ⟨_, _, rfl⟩
  | entry hi => obtain rfl := key (y := (1, diskSetup 3)) rfl hi; exact ⟨_, _, rfl⟩
  | headerAddress hh => obtain rfl := head hh; exact ⟨_, _, rfl⟩
  | next hh => obtain rfl := head hh; exact ⟨_, _, rfl⟩
  | buffer hh hd => obtain rfl := head hh; obtain rfl := key (y := (1, diskSetup 3)) rfl hd; exact ⟨_, _, rfl⟩
  | length hh hd => obtain rfl := head hh; obtain rfl := key (y := (1, diskSetup 3)) rfl hd; exact ⟨_, _, rfl⟩
  | flags hh hd => obtain rfl := head hh; obtain rfl := key (y := (1, diskSetup 3)) rfl hd; exact ⟨_, _, rfl⟩
  | sector hh ha => obtain rfl := head hh; obtain rfl := key (y := (0x80020000, diskSetup 3)) rfl ha; exact ⟨_, _, rfl⟩

/-! ### Invariants: they hold at reset, with a program and at a running state, and a step from there answers a next state -/

/-- A canonical state with data in every byte store and with paging on. -/
def rich : State := { (diskSetup 3) with pc := 0x80000000 }

theorem witness_StepKeepsCanonicalStores : CanonicalStores rich ∧ ∃ t, step rich = .next t := by
  refine ⟨by unfold CanonicalStores; decide, _, rfl⟩

theorem witness_StepKeepsPagingFollowsSatp : PagingFollowsSatp paged ∧ ∃ t, step paged = .next t := by
  refine ⟨by unfold PagingFollowsSatp; decide, _, rfl⟩

theorem witness_StepKeepsBytesInBounds : BytesInBounds State.reset ∧ ∃ t, step State.reset = .next t :=
  ⟨⟨fun _ h => absurd rfl h, fun _ h => absurd rfl h⟩, _, rfl⟩

theorem witness_StepKeepsCsrBankShape : CsrBankShape State.reset ∧ ∃ t, step State.reset = .next t :=
  ⟨⟨rfl, fun _ _ => rfl⟩, _, rfl⟩


end Sys2Proof.Tests
end

section
/-! What each part of a step can answer that is no next state: the instructions, the two phases, and the disk transfer; and
from these where a step stops (40_fetch_and_step.md R206, R209). -/

namespace Sys2Proof.Machine

/-! ## Instructions -/

/-- A branch of an instruction that delivers an exception answers a next state. -/
theorem raise_completes (e : Exc) (s : State) : ∃ t, raise e s = .next t := ⟨_, rfl⟩

theorem jumpAndLink_completes (rd : RegIdx) (a : Word) (s : State) : ∃ t, jumpAndLink rd a s = .next t := by
  unfold jumpAndLink
  split
  · exact ⟨_, rfl⟩
  · exact raise_completes _ s

theorem branchIf_completes (c : Bool) (off : BitVec 13) (s : State) : ∃ t, branchIf c off s = .next t := by
  unfold branchIf
  split
  · split
    · exact ⟨_, rfl⟩
    · exact raise_completes _ s
  · exact ⟨_, rfl⟩

theorem loadInto_completes (n : Width) (extend : Word → Word) (rd rs1 : RegIdx) (imm : BitVec 12) (s : State) :
    ∃ t, loadInto n extend rd rs1 imm s = .next t := by
  unfold loadInto
  split
  · exact raise_completes _ s
  · split
    · exact raise_completes _ s
    · exact ⟨_, rfl⟩

theorem storeFrom_completes (n : Width) (rs1 rs2 : RegIdx) (imm : BitVec 12) (s : State) :
    ∃ t, storeFrom n rs1 rs2 imm s = .next t := by
  unfold storeFrom
  split
  · exact raise_completes _ s
  · split
    · exact raise_completes _ s
    · exact ⟨_, rfl⟩

theorem loadReserved_completes (n : Width) (rd rs1 : RegIdx) (s : State) : ∃ t, loadReserved n rd rs1 s = .next t := by
  unfold loadReserved
  split
  · split
    · exact raise_completes _ s
    · split
      · exact raise_completes _ s
      · exact ⟨_, rfl⟩
  · exact raise_completes _ s

theorem storeConditional_completes (n : Width) (rd rs1 rs2 : RegIdx) (s : State) :
    ∃ t, storeConditional n rd rs1 rs2 s = .next t := by
  unfold storeConditional
  split
  · split
    · exact raise_completes _ s
    · split
      · split
        · exact raise_completes _ s
        · exact ⟨_, rfl⟩
      · exact ⟨_, rfl⟩
  · exact raise_completes _ s

theorem readModifyWrite_completes (n : Width) (op : Word → Word → Word) (rd rs1 rs2 : RegIdx) (s : State) :
    ∃ t, readModifyWrite n op rd rs1 rs2 s = .next t := by
  unfold readModifyWrite
  split
  · split
    · exact raise_completes _ s
    · split
      · exact raise_completes _ s
      · split
        · exact raise_completes _ s
        · exact ⟨_, rfl⟩
  · exact raise_completes _ s

/-- The one reserved encoding of MPP is 2 (60_exceptions.md R470). -/
theorem Mode.ofBits_eq_none_iff (b : BitVec 2) : Mode.ofBits b = none ↔ b = 2 := by
  revert b; decide

theorem mppBits_toNat (st : Word) : (mppBits st).toNat = st.toNat / 2 ^ 11 % 4 := by
  simp [mppBits, BitVec.extractLsb'_toNat, Nat.shiftRight_eq_div_pow]

/-- `mstatus.MPP` holds the reserved encoding (46_system.md R377). -/
def State.mppReserved (s : State) : Prop := mppBits (s.csrRaw Csr.mstatus) = 2

theorem State.mppReserved_iff (s : State) :
    s.mppReserved ↔ (s.csrRaw Csr.mstatus).toNat / 2 ^ 11 % 4 = 2 := by
  rw [State.mppReserved, ← mppBits_toNat, ← BitVec.toNat_inj]
  rfl

/-- MRET answers a next state or, with the reserved MPP, the model fault (46_system.md R377). -/
theorem execMret_completes_or_stops (s : State) :
    (∃ t, execMret s = .next t) ∨ (s.mppReserved ∧ execMret s = .fault .mretReservedMode) := by
  unfold execMret
  split
  · exact .inl ⟨_, rfl⟩
  · next h => exact .inr ⟨(Mode.ofBits_eq_none_iff _).1 h, rfl⟩

/-- An instruction answers a next state, unless it is MRET with the reserved MPP. -/
theorem exec_cases (i : Instr) (s : State) :
    (∃ t, exec i s = .next t) ∨
    ((∃ rs1 rd, i = .mret rs1 rd) ∧ s.mppReserved ∧ exec i s = .fault .mretReservedMode) := by
  cases i
  case mret rs1 rd =>
    exact (execMret_completes_or_stops s).imp_right fun h => ⟨⟨rs1, rd, rfl⟩, h⟩
  case jal | jalr => exact .inl (jumpAndLink_completes _ _ _)
  case beq | bne | blt | bge | bltu | bgeu => exact .inl (branchIf_completes _ _ _)
  case lb | lh | lw | ld | lbu | lhu | lwu => exact .inl (loadInto_completes _ _ _ _ _ _)
  case sb | sh | sw | sd => exact .inl (storeFrom_completes _ _ _ _ _)
  case lrW | lrD => exact .inl (loadReserved_completes _ _ _ _)
  case scW | scD => exact .inl (storeConditional_completes _ _ _ _ _)
  case amoswapW | amoaddW | amoxorW | amoandW | amoorW | amominW | amomaxW | amominuW | amomaxuW
      | amoswapD | amoaddD | amoxorD | amoandD | amoorD | amominD | amomaxD | amominuD | amomaxuD =>
    exact .inl (readModifyWrite_completes _ _ _ _ _ _)
  -- the other forms are one answer each, with no condition on the state
  all_goals exact .inl ⟨_, rfl⟩

/-! ## Phase A -/

/-- The registers an instruction reads are readable unless, without `RESET_GPR_ZERO`, one of them is unwritten. -/
theorem State.sourcesReadable_eq_false_iff (s : State) (i : Instr) :
    s.sourcesReadable i = false ↔ s.cfg.resetGprZero = false ∧ ∃ r ∈ sources i s, s.isWritten r = false := by
  simp [State.sourcesReadable]

/-- In state `s` the word at the pc is fetched and decodes to `i`. -/
def Fetches (s : State) (i : Instr) : Prop := ∃ w, fetch s = .ok w ∧ decodeWord s.cfg.hasM w = .ok i

/-- After a fetch and a decoding phase A answers what the check of the sources and the execution give. -/
theorem phaseA_of_fetches {s : State} {i : Instr} (h : Fetches s i) :
    phaseA s = if s.advance.sourcesReadable i then exec i s.advance else .fault .unwrittenRegister := by
  obtain ⟨w, hf, hd⟩ := h
  have hd' : decodeWord s.advance.cfg.hasM w = .ok i := hd
  simp only [phaseA, hf, executeWord, hd']

/-- Phase A delivers an exception, or it has fetched an instruction. -/
theorem phaseA_raises_or_fetches (s : State) :
    (∃ e, phaseA s = .next (s.advance.deliver e)) ∨ ∃ i, Fetches s i := by
  cases hf : fetch s with
  | error e => exact .inl ⟨e, by simp only [phaseA, hf, raise]⟩
  | ok w =>
    cases hd : decodeWord s.cfg.hasM w with
    | error e =>
      have hd' : decodeWord s.advance.cfg.hasM w = .error e := hd
      exact .inl ⟨.illegalInstruction, by simp only [phaseA, hf, executeWord, hd', raise]⟩
    | ok i => exact .inr ⟨i, w, hf, hd⟩

/-- Phase A stops only at an MRET with the reserved MPP and at an instruction whose sources are not readable. -/
theorem phaseA_cases (s : State) :
    (∃ t, phaseA s = .next t) ∨
    ((∃ rs1 rd, Fetches s (.mret rs1 rd)) ∧ s.mppReserved ∧ phaseA s = .fault .mretReservedMode) ∨
    ((∃ i, Fetches s i ∧ s.advance.sourcesReadable i = false) ∧ phaseA s = .fault .unwrittenRegister) := by
  obtain ⟨e, h⟩ | ⟨i, hi⟩ := phaseA_raises_or_fetches s
  · exact .inl ⟨_, h⟩
  · rw [phaseA_of_fetches hi]
    split
    · obtain hnext | ⟨⟨rs1, rd, rfl⟩, hmpp, hstop⟩ := exec_cases i s.advance
      · exact .inl hnext
      · exact .inr (.inl ⟨⟨rs1, rd, hi⟩, hmpp, hstop⟩)
    · next hr => exact .inr (.inr ⟨⟨i, hi, by simpa using hr⟩, rfl⟩)

/-! ## The disk transfer and phase B -/

/-- The model faults of a disk transfer (60_exceptions.md R547). -/
def Fault.OfDisk (f : Fault) : Prop := ∃ t, f = .virtioRange t ∨ f = .virtioBus t

theorem copyByte_error {toDisk : Bool} {buf : Word} {off : Nat} {s : State} {f : Fault}
    (h : copyByte toDisk buf off s = .error f) : f.OfDisk := by
  unfold copyByte at h
  split at h
  · split at h
    · next hv => cases h; exact ⟨s, .inr (dmaLoad_error hv)⟩
    · cases h
  · exact ⟨s, .inr (dmaStore_error h)⟩

theorem copyBytes_error {toDisk : Bool} {buf : Word} {off len : Nat} {s : State} {f : Fault}
    (h : copyBytes toDisk buf off len s = .error f) : f.OfDisk := by
  induction len generalizing buf off s with
  | zero => cases h
  | succ n ih =>
    unfold copyBytes at h
    split at h
    · next hb => cases h; exact copyByte_error hb
    · exact ih h

theorem transfer_error {r : DiskRequest} {s : State} {f : Fault} (h : transfer r s = .error f) : f.OfDisk := by
  unfold transfer at h
  split at h
  · cases h; exact ⟨s, .inl rfl⟩
  · exact copyBytes_error h

theorem readRequest_error {s : State} {f : Fault} (h : readRequest s = .error f) : f.OfDisk := by
  obtain e | ⟨_, _, _, _, _, _, _, _, -, -, -, -, -, -, -, -, e⟩ := readRequest_cases s <;> rw [e] at h <;> cases h
  exact ⟨s, .inr rfl⟩

theorem diskAccess_error {s : State} {f : Fault} (h : diskAccess s = .error f) : f.OfDisk := by
  unfold diskAccess at h
  split at h
  · next hr => cases h; exact readRequest_error hr
  · split at h
    · next ht => cases h; exact transfer_error ht
    · exact ⟨_, .inr (dmaStore_error h)⟩

/-- `queue_notify` holds a signal to the block device (60_exceptions.md R451). -/
def State.diskSignalled (s : State) : Prop := s.virtio.queueNotify ≠ s.cfg.virtioNotifyIdle

/-- The device poll fails only in a signalled disk transfer. -/
theorem pollDevices_error {s : State} {f : Fault} (h : pollDevices s = .error f) : f.OfDisk ∧ s.diskSignalled := by
  unfold pollDevices at h
  split at h
  · cases h
  · split at h
    · next hn =>
      split at h
      · next hd => cases h; exact ⟨diskAccess_error hd, hn⟩
      · cases h
    · cases h

theorem interruptCheck_cases (s : State) :
    (∃ t, interruptCheck s = .next t) ∨ ∃ f, interruptCheck s = .fault f ∧ f.OfDisk ∧ s.diskSignalled := by
  unfold interruptCheck
  split
  · split
    · next f hf => exact .inr ⟨f, rfl, pollDevices_error hf⟩
    · exact .inl ⟨_, rfl⟩
  · exact .inl ⟨_, rfl⟩

@[simp] theorem consoleSlot_cfg (s : State) : (consoleSlot s).cfg = s.cfg := by
  obtain ⟨u, i, h⟩ := consoleSlot_eq s
  rw [h]; rfl

theorem consoleSlot_diskSignalled (s : State) : (consoleSlot s).diskSignalled ↔ s.diskSignalled := by
  obtain ⟨u, i, h⟩ := consoleSlot_eq s
  rw [h]; rfl

/-- Phase B stops only in a signalled disk transfer of a machine that has not halted. -/
theorem phaseB_cases (s : State) :
    (∃ t, phaseB s = .next t) ∨ ∃ f, phaseB s = .fault f ∧ f.OfDisk ∧ s.halted = false ∧ s.diskSignalled := by
  unfold phaseB
  split
  · exact .inl ⟨s, rfl⟩
  · next hh =>
    obtain hnext | ⟨f, hf, hdisk, hsig⟩ := interruptCheck_cases (consoleSlot s)
    · exact .inl hnext
    · exact .inr ⟨f, hf, hdisk, by simpa using hh, (consoleSlot_diskSignalled s).1 hsig⟩

/-! ## The step -/

theorem step_of_inadmissible {s : State} (h : s.cfg.admissible = false) :
    step s = .refused .inadmissibleParameters := by
  simp [step, h]

theorem step_of_halted {s : State} (hc : s.cfg.admissible = true) (h : s.halted = true) : step s = .fault .halted := by
  simp [step, hc, h]

theorem step_of_running {s : State} (hc : s.cfg.admissible = true) (h : s.halted = false) : step s = runStep s := by
  simp [step, hc, h]

theorem runStep_of_next {s t : State} (h : phaseA (consoleSlot s) = .next t) : runStep s = phaseB t := by
  simp only [runStep, h]

theorem runStep_of_fault {s : State} {f : Fault} (h : phaseA (consoleSlot s) = .fault f) : runStep s = .fault f := by
  simp only [runStep, h]

/-- The ways a pass of the run loop can stop with fault `f`, where `s0` is the state phase A starts from. -/
inductive StopsWith (s0 : State) (f : Fault) : Prop
  /-- MRET with the reserved MPP (46_system.md R377) -/
  | mret {rs1 rd : RegIdx} (kind : f = .mretReservedMode) (fetched : Fetches s0 (.mret rs1 rd)) (mpp : s0.mppReserved)
  /-- a read of an unwritten register (10_state.md R42) -/
  | unwritten {i : Instr} (kind : f = .unwrittenRegister) (fetched : Fetches s0 i)
      (sources : s0.advance.sourcesReadable i = false)
  /-- a signalled disk transfer (60_exceptions.md R547) -/
  | disk {t : State} (kind : f.OfDisk) (executed : phaseA s0 = .next t) (running : t.halted = false)
      (signalled : t.diskSignalled)

/-- A pass of the run loop answers a next state or stops in one of the three ways; it refuses nothing. -/
theorem runStep_cases (s : State) :
    (∃ t, runStep s = .next t) ∨ ∃ f, runStep s = .fault f ∧ StopsWith (consoleSlot s) f := by
  obtain ⟨t, hA⟩ | ⟨⟨rs1, rd, hi⟩, hmpp, hA⟩ | ⟨⟨i, hi, hr⟩, hA⟩ := phaseA_cases (consoleSlot s)
  · rw [runStep_of_next hA]
    exact (phaseB_cases t).imp_right fun ⟨f, hf, hdisk, hrun, hsig⟩ => ⟨f, hf, .disk hdisk hA hrun hsig⟩
  · exact .inr ⟨_, runStep_of_fault hA, .mret rfl hi hmpp⟩
  · exact .inr ⟨_, runStep_of_fault hA, .unwritten rfl hi hr⟩

/-- Only inadmissible parameters are refused. -/
theorem step_refused {s : State} {r : Refusal} (h : step s = .refused r) : s.cfg.admissible = false := by
  by_contra hc
  have hc : s.cfg.admissible = true := by simpa using hc
  cases hh : s.halted with
  | true => rw [step_of_halted hc hh] at h; cases h
  | false =>
    rw [step_of_running hc hh] at h
    obtain ⟨t, ht⟩ | ⟨f, hf, -⟩ := runStep_cases s
    · rw [ht] at h; cases h
    · rw [hf] at h; cases h

/-- A running machine stops in one of the three ways. -/
theorem step_fault {s : State} {f : Fault} (hh : s.halted = false) (h : step s = .fault f) :
    StopsWith (consoleSlot s) f := by
  cases hc : s.cfg.admissible with
  | false => rw [step_of_inadmissible hc] at h; cases h
  | true =>
    rw [step_of_running hc hh] at h
    obtain ⟨t, ht⟩ | ⟨g, hg, hstop⟩ := runStep_cases s
    · rw [ht] at h; cases h
    · rw [hg] at h; cases h; exact hstop

/-- An instruction whose sources are not readable stops the step (10_state.md R42). -/
theorem step_of_sources_unreadable {s : State} {i : Instr} (hc : s.cfg.admissible = true) (hh : s.halted = false)
    (hi : Fetches (consoleSlot s) i) (hr : (consoleSlot s).advance.sourcesReadable i = false) :
    step s = .fault .unwrittenRegister := by
  rw [step_of_running hc hh]
  exact runStep_of_fault (by simp [phaseA_of_fetches hi, hr])

/-- `x0` counts as written. -/
theorem State.ne_zero_of_not_isWritten {s : State} {r : RegIdx} (h : s.isWritten r = false) : r ≠ 0 := by
  rintro rfl
  simp at h

/-- Settles O10: what stops a step is what stops one of its phases. -/
theorem stepStopsOnlyWhere : Obligations.StepStopsOnlyWhere := by
  unfold Obligations.StepStopsOnlyWhere
  rintro s _ rfl
  refine ⟨step_of_inadmissible, step_of_halted, fun _ => step_refused, ?_, ?_⟩
  · intro w i r hc hh hz hf hd hr hw
    exact ⟨State.ne_zero_of_not_isWritten hw, step_of_sources_unreadable hc hh ⟨w, hf, hd⟩
      ((State.sourcesReadable_eq_false_iff _ _).2 ⟨(consoleSlot_cfg s) ▸ hz, r, hr, hw⟩)⟩
  · intro f h hh
    cases step_fault hh h with
    | mret kind fetched mpp =>
      obtain ⟨w, hf, hd⟩ := fetched
      exact .inl ⟨kind, (State.mppReserved_iff _).1 mpp, w, _, _, hf, hd⟩
    | @unwritten i kind fetched unreadable =>
      obtain ⟨w, hf, hd⟩ := fetched
      obtain ⟨hz, r, hr, hw⟩ := (State.sourcesReadable_eq_false_iff _ _).1 unreadable
      exact .inr (.inl ⟨kind, consoleSlot_cfg s ▸ hz, w, i, r, hf, hd, hr, hw⟩)
    | disk kind executed running signalled => exact .inr (.inr ⟨kind, _, executed, running, signalled⟩)

end Sys2Proof.Machine
end

section
/-! The four invariants after reset, and that loading keeps them (10_state.md R56, R62, R66; 70_reset_and_hazards.md R565). -/

namespace Sys2Proof.Machine

open Sys2Proof.Safety

/-! ## Reset -/

theorem canonicalStores_resetWith (c : Config) : CanonicalStores (State.resetWith c) :=
  ⟨rfl, rfl, rfl, rfl⟩

@[simp] theorem State.resetWith_paging (c : Config) : (State.resetWith c).paging = false := rfl

@[simp] theorem State.resetWith_ptRoot (c : Config) : (State.resetWith c).ptRoot = 0 := rfl

@[simp] theorem State.resetWith_csrRaw (c : Config) (a : CsrNum) : (State.resetWith c).csrRaw a = 0 := rfl

theorem pagingFollowsSatp_resetWith (c : Config) : PagingFollowsSatp (State.resetWith c) := by
  simp [PagingFollowsSatp]

theorem bytesInBounds_resetWith (c : Config) : BytesInBounds (State.resetWith c) :=
  ⟨fun _ h => absurd rfl h, fun _ h => absurd rfl h⟩

theorem csrBankShape_resetWith (c : Config) : CsrBankShape (State.resetWith c) :=
  ⟨rfl, fun _ _ => rfl⟩

/-! ## Loading -/

/-- `s` with both images in place and `DISK_SIZE` set. -/
def State.withImages (s : State) (image disk : List Byte) : State :=
  { s with
    cfg := { s.cfg with diskSize := disk.length }
    mem := Memory.writeBytes s.mem s.cfg.dramBase image
    disk := Memory.writeBytes [] 0 disk }

/-- Loading succeeds only with an image that fits. -/
theorem load_eq_next {s t : State} {image disk : List Byte} (h : s.load image disk = .next t) :
    image.length ≤ s.cfg.dramSize ∧ t = s.withImages image disk := by
  unfold State.load at h
  split at h
  · cases h
  · next hfit => exact ⟨by omega, next_inj h⟩

section Loading

variable {s t : State} {image disk : List Byte} (h : s.load image disk = .next t)
include h

theorem canonicalStores_load (hs : CanonicalStores s) : CanonicalStores t := by
  obtain ⟨-, rfl⟩ := load_eq_next h
  obtain ⟨hmem, -, huart, hcsr⟩ := hs
  exact ⟨Memory.wf_writeBytes hmem _ _, Memory.wf_writeBytes rfl _ _, huart, hcsr⟩

theorem pagingFollowsSatp_load (hs : PagingFollowsSatp s) : PagingFollowsSatp t := by
  obtain ⟨-, rfl⟩ := load_eq_next h
  exact hs

theorem csrBankShape_load (hs : CsrBankShape s) : CsrBankShape t := by
  obtain ⟨-, rfl⟩ := load_eq_next h
  exact hs

end Loading

/-- A nonzero byte after copying a sequence lies in the copy or was there before. -/
theorem Memory.read_writeBytes_ne_zero {m : List Host.Cell} {a q : Nat} {bytes : List Byte}
    (h : Memory.read (Memory.writeBytes m a bytes) q ≠ 0) :
    (a ≤ q ∧ q < a + bytes.length) ∨ Memory.read m q ≠ 0 := by
  by_contra hout
  obtain ⟨hq, hm⟩ := not_or.1 hout
  rw [Memory.read_writeBytes] at h
  split at h
  · next ha =>
    rw [List.getElem?_eq_none (by omega)] at h
    exact hm h
  · exact hm h

theorem bytesInBounds_load {s t : State} {image disk : List Byte} (h : s.load image disk = .next t)
    (hs : BytesInBounds s) : BytesInBounds t := by
  obtain ⟨hfit, rfl⟩ := load_eq_next h
  refine ⟨fun a ha => ?_, fun k hk => ?_⟩
  · obtain ⟨h1, h2⟩ | hold := Memory.read_writeBytes_ne_zero ha
    · have h3 : a + 1 ≤ s.cfg.dramBase + s.cfg.dramSize := by omega
      exact ⟨h1, h3⟩
    · exact hs.1 a hold
  · obtain ⟨-, h2⟩ | hold := Memory.read_writeBytes_ne_zero hk
    · rw [Nat.zero_add] at h2
      exact h2
    · exact absurd (Memory.read_nil k) hold

/-- Settles O6: the invariants hold of the reset state, and loading keeps each of them. -/
theorem resetMeetsInvariants : Obligations.ResetMeetsInvariants := by
  unfold Obligations.ResetMeetsInvariants
  refine ⟨rfl, rfl, rfl, rfl, fun c => ⟨⟨canonicalStores_resetWith c, pagingFollowsSatp_resetWith c,
    bytesInBounds_resetWith c, csrBankShape_resetWith c⟩, fun image disk t h => ?_⟩⟩
  exact ⟨canonicalStores_load h (canonicalStores_resetWith c), pagingFollowsSatp_load h (pagingFollowsSatp_resetWith c),
    bytesInBounds_load h (bytesInBounds_resetWith c), csrBankShape_load h (csrBankShape_resetWith c)⟩

end Sys2Proof.Machine
end

section
/-! The step invariants of the byte stores, the CSR bank and the paging state. They look at the stores alone, so most
updates cannot disturb them; what is left are the writes to DRAM, to the console's registers, to the disk and to the
CSR bank. -/

namespace Sys2Proof.Machine

open Sys2Proof.Safety

/-- What the invariants look at: the parameters, the byte stores, the CSR bank and the paging state. -/
structure Stores where
  cfg      : Config
  mem      : List Host.Cell
  disk     : List Host.Cell
  uartRegs : List Host.Cell
  csr      : List (Nat × Word)
  paging   : Bool
  ptRoot   : Word

def State.stores (s : State) : Stores where
  cfg      := s.cfg
  mem      := s.mem
  disk     := s.disk
  uartRegs := s.uart.regs
  csr      := s.csr
  paging   := s.paging
  ptRoot   := s.ptRoot

theorem State.stores_eq_iff {s t : State} :
    t.stores = s.stores ↔ t.cfg = s.cfg ∧ t.mem = s.mem ∧ t.disk = s.disk ∧ t.uart.regs = s.uart.regs ∧
      t.csr = s.csr ∧ t.paging = s.paging ∧ t.ptRoot = s.ptRoot := by
  simp [State.stores]

theorem State.stores_setReg (s : State) (r : RegIdx) (v : Word) : (s.setReg r v).stores = s.stores := by
  simp [State.stores]

/-- A predicate over the stores is kept by every update when it is kept by the writes to the stores. -/
theorem KeptByUpdates.of_stores {P : State → Prop}
    (same : ∀ {s t}, P s → t.stores = s.stores → P t)
    (setMem : ∀ {s : State} pa n v, s.cfg.dramBase ≤ pa → pa + n ≤ s.cfg.dramBase + s.cfg.dramSize → P s →
      P (s.setMem (Memory.writeLE s.mem pa n v)))
    (setUart : ∀ {s : State} off b, P s → P (s.setUart (s.uart.setReg off b)))
    (setDisk : ∀ {s : State} off b, off < s.cfg.diskSize → P s → P (s.setDisk (Memory.write s.disk off b)))
    (setCsr : ∀ {s} a v, a ≠ Csr.sie → a ≠ Csr.satp → P s → P (s.setCsr a v))
    (setSatp : ∀ {s} v, P s → P (s.csrWrite Csr.satp v)) : KeptByUpdates P where
  setReg r v hp := same hp (State.stores_setReg _ r v)
  setPc _ hp := same hp rfl
  setMode _ hp := same hp rfl
  setResv _ hp := same hp rfl
  setHalted _ hp := same hp rfl
  setPlic _ hp := same hp rfl
  setVirtio _ hp := same hp rfl
  setInput _ hp := same hp rfl
  setIntr _ hp := same hp rfl
  setUart := setUart
  setDisk := setDisk
  setCsr := setCsr
  store _ _ _ _ hp h := by
    obtain ⟨h1, h2, rfl⟩ | ⟨_, rfl⟩ | ⟨_, rfl⟩ | ⟨_, rfl⟩ | ⟨_, _, rfl⟩ | ⟨_, rfl⟩ := busStore_ok h
    · exact setMem _ _ _ h1 h2 hp
    · exact same hp rfl
    · exact same hp rfl
    · exact same hp rfl
    · exact setUart _ _ hp
    · exact same hp rfl
  csrWrite a v hp := by
    by_cases hsie : a = Csr.sie
    · rw [hsie, State.csrWrite_sie]
      exact setCsr _ _ (by decide) (by decide) hp
    · by_cases hsatp : a = Csr.satp
      · rw [hsatp]
        exact setSatp _ hp
      · rw [State.csrWrite_of_ne hsie hsatp]
        exact setCsr _ _ hsie hsatp hp

/-! ## The canonical form -/

theorem canonicalStores_of_stores {s t : State} (hs : CanonicalStores s) (h : t.stores = s.stores) :
    CanonicalStores t := by
  obtain ⟨-, hmem, hdisk, huart, hcsr, -, -⟩ := State.stores_eq_iff.1 h
  rwa [CanonicalStores, hmem, hdisk, huart, hcsr]

theorem keptByUpdates_canonicalStores : KeptByUpdates CanonicalStores :=
  .of_stores canonicalStores_of_stores
    (setMem := fun _ _ _ _ _ ⟨hm, hd, hu, hc⟩ => ⟨Memory.wf_writeLE hm _ _ _, hd, hu, hc⟩)
    (setUart := fun _ _ ⟨hm, hd, hu, hc⟩ => ⟨hm, hd, Memory.wf_write hu _ _, hc⟩)
    (setDisk := fun _ _ _ ⟨hm, hd, hu, hc⟩ => ⟨hm, Memory.wf_write hd _ _, hu, hc⟩)
    (setCsr := fun _ _ _ _ ⟨hm, hd, hu, hc⟩ => ⟨hm, hd, hu, State.csr_wf_setCsr hc _ _⟩)
    (setSatp := fun _ ⟨hm, hd, hu, hc⟩ => ⟨hm, hd, hu, State.csr_wf_setCsr hc _ _⟩)

/-- Settles O57: each write to a store keeps the canonical form, so every step does. -/
theorem stepKeepsCanonicalStores : Obligations.StepKeepsCanonicalStores := by
  unfold Obligations.StepKeepsCanonicalStores
  exact fun _ _ => keptByUpdates_canonicalStores.step

/-! ## The bounds of DRAM and of the disk -/

/-- A nonzero byte after a store lies in the bytes stored or was there before. -/
theorem Memory.read_writeLE_ne_zero {m : List Host.Cell} {a n q : Nat} {v : Word}
    (h : Memory.read (Memory.writeLE m a n v) q ≠ 0) : (a ≤ q ∧ q < a + n) ∨ Memory.read m q ≠ 0 := by
  rw [Memory.read_writeLE] at h
  split at h
  · next hin => exact .inl hin
  · exact .inr h

/-- A nonzero byte after the write of one byte is that byte or was there before. -/
theorem Memory.read_write_ne_zero {m : List Host.Cell} {a q : Nat} {b : Byte}
    (h : Memory.read (Memory.write m a b) q ≠ 0) : q = a ∨ Memory.read m q ≠ 0 := by
  rw [Memory.read_write] at h
  split at h
  · next heq => exact .inl heq
  · exact .inr h

theorem bytesInBounds_of_stores {s t : State} (hs : BytesInBounds s) (h : t.stores = s.stores) :
    BytesInBounds t := by
  obtain ⟨hcfg, hmem, hdisk, -, -, -, -⟩ := State.stores_eq_iff.1 h
  simpa only [BytesInBounds, InDram, State.byte, hcfg, hmem, hdisk] using hs

theorem bytesInBounds_setMem {s : State} {pa n : Nat} (v : Word) (h1 : s.cfg.dramBase ≤ pa)
    (h2 : pa + n ≤ s.cfg.dramBase + s.cfg.dramSize) (hs : BytesInBounds s) :
    BytesInBounds (s.setMem (Memory.writeLE s.mem pa n v)) := by
  refine ⟨fun a ha => ?_, hs.2⟩
  obtain ⟨h3, h4⟩ | hold := Memory.read_writeLE_ne_zero ha
  · simp only [InDram, State.setMem_cfg]
    omega
  · exact hs.1 a hold

theorem bytesInBounds_setDisk {s : State} {off : Nat} (b : Byte) (ho : off < s.cfg.diskSize) (hs : BytesInBounds s) :
    BytesInBounds (s.setDisk (Memory.write s.disk off b)) := by
  refine ⟨hs.1, fun k hk => ?_⟩
  obtain rfl | hold := Memory.read_write_ne_zero hk
  · exact ho
  · exact hs.2 k hold

theorem keptByUpdates_bytesInBounds : KeptByUpdates BytesInBounds :=
  .of_stores bytesInBounds_of_stores
    (setMem := fun _ _ v => bytesInBounds_setMem v)
    (setUart := fun _ _ hs => hs)
    (setDisk := fun _ => bytesInBounds_setDisk)
    (setCsr := fun _ _ _ _ hs => hs)
    (setSatp := fun _ hs => hs)

/-- Settles O59: the bus refuses a store that passes the end of DRAM, and a transfer one that passes the end of the
disk. -/
theorem stepKeepsBytesInBounds : Obligations.StepKeepsBytesInBounds := by
  unfold Obligations.StepKeepsBytesInBounds
  exact fun _ _ => keptByUpdates_bytesInBounds.step

/-! ## The paging state and the parameters -/

theorem satpPaging_iff (v : Word) : satpPaging v = true ↔ v.toNat / 2 ^ 60 = 8 := by
  have hv := v.isLt
  rw [satpPaging, beq_iff_eq, ← BitVec.toNat_inj, BitVec.extractLsb'_toNat, Nat.shiftRight_eq_div_pow,
    Nat.mod_eq_of_lt (by omega)]
  rfl

theorem satpRoot_toNat (c : Config) (v : Word) : (satpRoot c v).toNat = v.toNat % 2 ^ 44 * c.pageSize % 2 ^ 64 := by
  rw [satpRoot, BitVec.toNat_ofNat, BitVec.extractLsb'_toNat, Nat.shiftRight_zero]

/-- The paging state follows `satp`, and the parameters are `c`. -/
def PagingFollowsSatpUnder (c : Config) (s : State) : Prop := PagingFollowsSatp s ∧ s.cfg = c

theorem pagingFollowsSatpUnder_of_stores {c : Config} {s t : State} (hs : PagingFollowsSatpUnder c s)
    (h : t.stores = s.stores) : PagingFollowsSatpUnder c t := by
  obtain ⟨hcfg, -, -, -, hcsr, hpaging, hroot⟩ := State.stores_eq_iff.1 h
  simpa only [PagingFollowsSatpUnder, PagingFollowsSatp, State.csrRaw, hcfg, hcsr, hpaging, hroot] using hs

/-- A write to another CSR leaves `satp` and the paging state alone. -/
theorem pagingFollowsSatp_setCsr {s : State} {a : CsrNum} (ha : a ≠ Csr.satp) (v : Word) (hs : PagingFollowsSatp s) :
    PagingFollowsSatp (s.setCsr a v) := by
  rw [PagingFollowsSatp, State.csrRaw_setCsr_other s ha.symm]
  exact hs

/-- A write to `satp` establishes what R56 says, whatever held before. -/
theorem pagingFollowsSatp_csrWrite_satp (s : State) (v : Word) : PagingFollowsSatp (s.csrWrite Csr.satp v) := by
  rw [State.csrWrite_satp, PagingFollowsSatp, State.setPaging_csrRaw, State.csrRaw_setCsr_self]
  exact ⟨satpPaging_iff v, satpRoot_toNat s.cfg v⟩

theorem keptByUpdates_pagingFollowsSatpUnder (c : Config) : KeptByUpdates (PagingFollowsSatpUnder c) :=
  .of_stores pagingFollowsSatpUnder_of_stores
    (setMem := fun _ _ _ _ _ hs => hs)
    (setUart := fun _ _ hs => hs)
    (setDisk := fun _ _ _ hs => hs)
    (setCsr := fun _ v _ ha ⟨hs, hcfg⟩ => ⟨pagingFollowsSatp_setCsr ha v hs, hcfg⟩)
    (setSatp := fun v ⟨_, hcfg⟩ => ⟨pagingFollowsSatp_csrWrite_satp _ v, hcfg⟩)

/-- Settles O58: `satp` and the paging state are written together (R56), and no update writes the parameters. -/
theorem stepKeepsPagingFollowsSatp : Obligations.StepKeepsPagingFollowsSatp := by
  unfold Obligations.StepKeepsPagingFollowsSatp
  exact fun s _ hs => (keptByUpdates_pagingFollowsSatpUnder s.cfg).step ⟨hs, rfl⟩

end Sys2Proof.Machine
end

section
/-! What reset and the loader leave (10_state.md R68; 70_reset_and_hazards.md R565). -/

namespace Sys2Proof.Machine

/-- The loader refuses an image longer than DRAM. -/
theorem load_of_too_long {s : State} {image disk : List Byte} (h : s.cfg.dramSize < image.length) :
    s.load image disk = .refused .imageTooLong := by
  simp [State.load, h]

/-- The loader puts any other image in place. -/
theorem load_of_fits {s : State} {image disk : List Byte} (h : image.length ≤ s.cfg.dramSize) :
    s.load image disk = .next (s.withImages image disk) := by
  simp [State.load, State.withImages, h]

/-- A byte sequence copied into an empty store: its bytes, and 0 elsewhere. -/
theorem Memory.read_writeBytes_nil (a : Nat) (bytes : List Byte) (q : Nat) :
    Memory.read (Memory.writeBytes [] a bytes) q = if a ≤ q then bytes.getD (q - a) 0 else 0 := by
  simp [Memory.read_writeBytes]

/-- The stack pointer after reset (10_state.md R42). -/
theorem State.resetWith_reg_two (c : Config) :
    (State.resetWith c).reg 2 = BitVec.ofNat 64 (c.dramBase + c.dramSize) := by
  simp [State.reg_eq, State.resetWith, resetRegs, resetSp]

/-- With `RESET_GPR_ZERO` every register but the stack pointer is 0 after reset (10_state.md R42). -/
theorem State.resetWith_reg_of_gprZero {c : Config} (hc : c.resetGprZero = true) {r : RegIdx} (hr : r ≠ 2) :
    (State.resetWith c).reg r = 0 := by
  have hn : 2 ≠ r.toNat := fun h => hr (BitVec.eq_of_toNat_eq h.symm)
  simp [State.reg_eq, State.resetWith, resetRegs, hc, hn]

/-- The console's registers after reset: the line status, and 0 elsewhere (10_state.md R65, R68). -/
theorem State.resetWith_uart_reg (c : Config) (k : Nat) :
    (State.resetWith c).uart.reg k = if k = 5 then 0x20 else 0 := by
  simp [State.resetWith, Uart.reg, Memory.read, sparseRead, unlistedByte]

/-- Settles O5: reset gives every field by definition, and loading changes the two images and `DISK_SIZE` alone. -/
theorem resetAndLoadValues : Obligations.ResetAndLoadValues := by
  unfold Obligations.ResetAndLoadValues
  intro c image disk
  refine ⟨fun hlong => load_of_too_long hlong, fun hfit =>
    ⟨(State.resetWith c).withImages image disk, load_of_fits hfit, ?_⟩⟩
  have hmem := Memory.read_writeBytes_nil c.dramBase image
  have hdisk : ∀ k, Memory.read (Memory.writeBytes [] 0 disk) k = disk.getD k 0 := Memory.read_writeBytes_nil 0 disk
  exact ⟨rfl, State.resetWith_reg_two c, fun hz _ => State.resetWith_reg_of_gprZero hz, rfl, rfl,
    State.resetWith_csrRaw c, rfl, rfl, rfl, rfl, hmem, rfl, rfl, rfl, rfl, rfl, rfl, State.resetWith_uart_reg c, rfl, rfl,
    rfl, rfl, rfl, rfl, rfl, rfl, rfl, hdisk, rfl, rfl⟩

end Sys2Proof.Machine
end

section
/-! A register that an instruction does not come to read does not matter (10_state.md R42; 40_fetch_and_step.md R209),
template by template, and where the storing instructions come to read `x[rs2]` (notes/assumptions/12.md). -/

namespace Sys2Proof.Machine

open Sys2Proof.Safety

/-- `b` is answer `a` with value `v` in register `r`, or is `a` itself where the destination `d` is `r`; a fault is the
same fault. -/
def AnswersBut (r : RegIdx) (v : Word) (d : Option RegIdx) (a b : Result) : Prop :=
  (∃ t, a = .next t ∧ (b = .next (t.setReg r v) ∨ (d = some r ∧ b = .next t))) ∨ ∃ f, a = .fault f ∧ b = .fault f

section UnreadRegister

variable {r rd rs1 rs2 : RegIdx} {v : Word} {d : Option RegIdx} {s : State} {n : Width}

/-! ## The answers -/

theorem answersBut_next (t : State) : AnswersBut r v d (.next t) (.next (t.setReg r v)) :=
  .inl ⟨t, rfl, .inl rfl⟩

theorem answersBut_fault (f : Fault) : AnswersBut r v d (.fault f) (.fault f) := .inr ⟨f, rfl, rfl⟩

/-- A write of the destination hides the other value where it is the same register, and else keeps it. -/
theorem answersBut_setReg (t : State) (w : Word) :
    AnswersBut r v (some rd) (.next (t.setReg rd w)) (.next ((t.setReg r v).setReg rd w)) := by
  by_cases h : rd = r
  · subst h
    exact .inl ⟨_, rfl, .inr ⟨rfl, by rw [State.setReg_setReg_same]⟩⟩
  · rw [State.setReg_comm t h]
    exact answersBut_next _

theorem answersBut_raise (e : Exc) : AnswersBut r v d (raise e s) (raise e (s.setReg r v)) := by
  rw [raise, raise, deliver_setReg]
  exact answersBut_next _

/-! ## The registers read -/

/-- Every register of a list that `r` is not in reads as before. -/
theorem State.reg_setReg_of_not_mem {l : List RegIdx} (h : r ∉ l) {q : RegIdx} (hq : q ∈ l) :
    (s.setReg r v).reg q = s.reg q :=
  (s.setReg_other (ne_of_mem_of_not_mem hq h) v).1

theorem State.reg_setReg_one (h : r ∉ [rs1]) : (s.setReg r v).reg rs1 = s.reg rs1 :=
  State.reg_setReg_of_not_mem h (by simp)

theorem State.reg_setReg_two (h : r ∉ [rs1, rs2]) :
    (s.setReg r v).reg rs1 = s.reg rs1 ∧ (s.setReg r v).reg rs2 = s.reg rs2 :=
  ⟨State.reg_setReg_of_not_mem h (by simp), State.reg_setReg_of_not_mem h (by simp)⟩

@[simp] theorem readsOf_true : readsOf rs1 rs2 true = [rs1, rs2] := rfl

@[simp] theorem readsOf_false : readsOf rs1 rs2 false = [rs1] := rfl

theorem State.reg_setReg_readsOf {second : Bool} (h : r ∉ readsOf rs1 rs2 second) :
    (s.setReg r v).reg rs1 = s.reg rs1 ∧ (second = true → (s.setReg r v).reg rs2 = s.reg rs2) := by
  cases second
  · exact ⟨State.reg_setReg_one h, nofun⟩
  · exact (State.reg_setReg_two h).imp_right fun h _ => h

theorem State.csrRead_setReg (a : CsrNum) : (s.setReg r v).csrRead a = s.csrRead a := by
  simp [State.csrRead]

/-! ## The templates -/

theorem writeResult_answersBut {w w' : Word} (hw : w' = w) :
    AnswersBut r v (some rd) (writeResult rd w s) (writeResult rd w' (s.setReg r v)) := by
  subst hw
  exact answersBut_setReg s _

theorem jumpAndLink_answersBut {a a' : Word} (ha : a' = a) :
    AnswersBut r v (some rd) (jumpAndLink rd a s) (jumpAndLink rd a' (s.setReg r v)) := by
  subst ha
  unfold jumpAndLink
  rw [State.setPc_setReg, State.setReg_pc]
  split
  · exact answersBut_setReg _ _
  · exact answersBut_raise _

theorem branchIf_answersBut {c c' : Bool} (hc : c' = c) (off : BitVec 13) :
    AnswersBut r v d (branchIf c off s) (branchIf c' off (s.setReg r v)) := by
  subst hc
  unfold branchIf State.ipc
  rw [State.setPc_setReg, State.setReg_pc]
  split
  · split
    · exact answersBut_next _
    · exact answersBut_raise _
  · exact answersBut_next _

theorem loadInto_answersBut (h : r ∉ [rs1]) (extend : Word → Word) (imm : BitVec 12) :
    AnswersBut r v (some rd) (loadInto n extend rd rs1 imm s) (loadInto n extend rd rs1 imm (s.setReg r v)) := by
  unfold loadInto State.ea
  rw [translate_setReg, State.reg_setReg_one h]
  cases translate s (s.reg rs1 + imm64 imm) .load with
  | error e => exact answersBut_raise _
  | ok pa =>
    dsimp only
    rw [busLoad_setReg]
    cases busLoad s pa n .load with
    | error e => exact answersBut_raise _
    | ok x => exact answersBut_setReg _ _

theorem storeFrom_answersBut {imm : BitVec 12} (h : r ∉ readsOf rs1 rs2 (s.storeReadsData rs1 imm)) :
    AnswersBut r v d (storeFrom n rs1 rs2 imm s) (storeFrom n rs1 rs2 imm (s.setReg r v)) := by
  obtain ⟨h1, h2⟩ := State.reg_setReg_readsOf (s := s) (v := v) h
  rw [State.storeReadsData_eq, State.ea] at h2
  unfold storeFrom State.ea
  rw [translate_setReg, h1]
  cases ht : translate s (s.reg rs1 + imm64 imm) .store with
  | error e => exact answersBut_raise _
  | ok pa =>
    dsimp only
    rw [h2 (by rw [ht]; rfl), busStore_setReg]
    cases busStore s pa n (s.reg rs2) .store with
    | error e => exact answersBut_raise _
    | ok t => exact answersBut_next _

theorem loadReserved_answersBut (h : r ∉ [rs1]) :
    AnswersBut r v (some rd) (loadReserved n rd rs1 s) (loadReserved n rd rs1 (s.setReg r v)) := by
  unfold loadReserved
  rw [translate_setReg, State.reg_setReg_one h]
  split
  · cases translate s (s.reg rs1) .load with
    | error e => exact answersBut_raise _
    | ok pa =>
      dsimp only
      rw [busLoad_setReg]
      cases busLoad s pa n .load with
      | error e => exact answersBut_raise _
      | ok x =>
        dsimp only [Except.map]
        rw [State.setResv_setReg]
        exact answersBut_setReg _ _
  · exact answersBut_raise _

theorem storeConditional_answersBut (h : r ∉ readsOf rs1 rs2 (s.conditionalReadsData n rs1)) :
    AnswersBut r v (some rd) (storeConditional n rd rs1 rs2 s) (storeConditional n rd rs1 rs2 (s.setReg r v)) := by
  obtain ⟨h1, h2⟩ := State.reg_setReg_readsOf (s := s) (v := v) h
  rw [State.conditionalReadsData_iff] at h2
  unfold storeConditional
  rw [translate_setReg, h1, State.setReg_resv]
  split
  · next ha =>
    cases ht : translate s (s.reg rs1) .store with
    | error e => exact answersBut_raise _
    | ok pa =>
      dsimp only
      split
      · next hr =>
        rw [h2 ⟨ha, pa, ht, hr⟩, busStore_setReg]
        cases busStore s pa n (s.reg rs2) .store with
        | error e => exact answersBut_raise _
        | ok t =>
          dsimp only [Except.map]
          rw [State.setResv_setReg]
          exact answersBut_setReg _ _
      · rw [State.setResv_setReg]
        exact answersBut_setReg _ _
  · exact answersBut_raise _

theorem readModifyWrite_answersBut (h : r ∉ readsOf rs1 rs2 (s.amoReadsOperand n rs1)) (op : Word → Word → Word) :
    AnswersBut r v (some rd) (readModifyWrite n op rd rs1 rs2 s) (readModifyWrite n op rd rs1 rs2 (s.setReg r v)) := by
  obtain ⟨h1, h2⟩ := State.reg_setReg_readsOf (s := s) (v := v) h
  rw [State.amoReadsOperand_iff] at h2
  unfold readModifyWrite
  rw [translate_setReg, h1]
  split
  · next ha =>
    cases ht : translate s (s.reg rs1) .store with
    | error e => exact answersBut_raise _
    | ok pa =>
      dsimp only
      rw [busLoad_setReg]
      cases hb : busLoad s pa n .store with
      | error e => exact answersBut_raise _
      | ok x =>
        dsimp only [Except.map]
        rw [h2 ⟨ha, pa, x, ht, hb⟩, busStore_setReg]
        cases busStore x.2 pa n (op x.1 (s.reg rs2)) .store with
        | error e => exact answersBut_raise _
        | ok t => exact answersBut_setReg _ _
  · exact answersBut_raise _

theorem readModifyCsr_answersBut (new : Word → Word) (a : CsrNum) :
    AnswersBut r v (some rd) (readModifyCsr rd a new s) (readModifyCsr rd a new (s.setReg r v)) := by
  unfold readModifyCsr
  rw [State.csrRead_setReg, csrWrite_setReg]
  exact answersBut_setReg _ _

theorem State.returnS_setReg : (s.setReg r v).returnS = s.returnS.setReg r v := by
  simp only [State.returnS, State.setReg_csrRaw, State.setCsr_setReg, State.setMode_setReg, State.setPc_setReg]

theorem State.returnM_setReg (m : Mode) : (s.setReg r v).returnM m = (s.returnM m).setReg r v := by
  simp only [State.returnM, State.setReg_csrRaw, State.setCsr_setReg, State.setMode_setReg, State.setPc_setReg]

theorem execSret_answersBut : AnswersBut r v d (execSret s) (execSret (s.setReg r v)) := by
  rw [execSret, execSret, State.returnS_setReg]
  exact answersBut_next _

theorem execMret_answersBut : AnswersBut r v d (execMret s) (execMret (s.setReg r v)) := by
  unfold execMret
  rw [State.setReg_csrRaw]
  cases Mode.ofBits (mppBits (s.csrRaw Csr.mstatus)) with
  | some m =>
    dsimp only
    rw [State.returnM_setReg]
    exact answersBut_next _
  | none => exact answersBut_fault _

theorem execEcall_answersBut : AnswersBut r v d (execEcall s) (execEcall (s.setReg r v)) := by
  rw [execEcall, execEcall, State.setReg_mode]
  exact answersBut_raise _

/-! ## The instructions -/

theorem exec_answersBut {i : Instr} (h : r ∉ sources i s) :
    AnswersBut r v (destination i) (exec i s) (exec i (s.setReg r v)) := by
  cases i
  case lui => exact writeResult_answersBut rfl
  case auipc => exact writeResult_answersBut (by rw [State.ipc, State.setReg_pc]; rfl)
  case jal => exact jumpAndLink_answersBut (by rw [State.ipc, State.setReg_pc]; rfl)
  case jalr => exact jumpAndLink_answersBut (by rw [State.ea, State.reg_setReg_one h]; rfl)
  case beq | bne | blt | bge | bltu | bgeu =>
    obtain ⟨h1, h2⟩ := State.reg_setReg_two (s := s) (v := v) h
    exact branchIf_answersBut (by rw [h1, h2]) _
  case lb | lh | lw | ld | lbu | lhu | lwu => exact loadInto_answersBut h _ _
  case sb | sh | sw | sd => exact storeFrom_answersBut h
  case addi | slti | sltiu | xori | ori | andi | slli | srli | srai | addiw | slliw | srliw | sraiw =>
    exact writeResult_answersBut (by rw [State.reg_setReg_one h])
  case add | sub | sll | slt | sltu | xor | srl | sra | or | and | addw | subw | sllw | srlw | sraw
      | mul | mulh | mulhsu | mulhu | div | divu | rem | remu | mulw | divw | divuw | remw | remuw =>
    obtain ⟨h1, h2⟩ := State.reg_setReg_two (s := s) (v := v) h
    exact writeResult_answersBut (by rw [h1, h2])
  case fence | fenceI | wfi | sfenceVma => exact answersBut_next s
  case ecall => exact execEcall_answersBut
  case ebreak => exact answersBut_raise _
  case sret => exact execSret_answersBut
  case mret => exact execMret_answersBut
  case csrrw | csrrs | csrrc =>
    simp only [exec, execCsrrw, execCsrrs, execCsrrc, State.reg_setReg_one h]
    exact readModifyCsr_answersBut _ _
  case csrrwi | csrrsi | csrrci =>
    simp only [exec, execCsrrwi, execCsrrsi, execCsrrci]
    exact readModifyCsr_answersBut _ _
  case lrW | lrD => exact loadReserved_answersBut h
  case scW | scD => exact storeConditional_answersBut h
  case amoswapW | amoaddW | amoxorW | amoandW | amoorW | amominW | amomaxW | amominuW | amomaxuW
      | amoswapD | amoaddD | amoxorD | amoandD | amoorD | amominD | amomaxD | amominuD | amomaxuD =>
    exact readModifyWrite_answersBut h _

end UnreadRegister

/-! ## Where the storing instructions read `x[rs2]` -/

theorem sources_storeForms (s : State) (rs1 rs2 : RegIdx) (imm : BitVec 12) :
    ∀ f ∈ storeForms rs1 rs2 imm, sources f.1 s = readsOf rs1 rs2 (s.storeReadsData rs1 imm) := by
  intro f hf
  fin_cases hf <;> rfl

/-- Whether SC or an AMO comes to read `x[rs2]`. -/
def State.atomicReadsOperand (s : State) (reservation : Bool) (n : Width) (rs1 : RegIdx) : Bool :=
  if reservation then s.conditionalReadsData n rs1 else s.amoReadsOperand n rs1

theorem sources_storingAtomics (s : State) (rd rs1 rs2 : RegIdx) (aq rl : Bool) :
    ∀ f ∈ storingAtomics rd rs1 rs2 aq rl,
      sources f.1 s = readsOf rs1 rs2 (s.atomicReadsOperand (isReservation f.1) f.2 rs1) := by
  intro f hf
  fin_cases hf <;> rfl

section AtomicReads

variable {s : State} {n : Width} {rs1 : RegIdx}

theorem State.atomicReadsOperand_of_misaligned (reservation : Bool) (h : (s.reg rs1).toNat % n.bytes ≠ 0) :
    s.atomicReadsOperand reservation n rs1 = false := by
  have ha : alignedTo n (s.reg rs1) = false := by simpa [alignedTo] using h
  cases reservation <;>
    simp [State.atomicReadsOperand, State.conditionalReadsData, State.amoReadsOperand, ha]

theorem State.atomicReadsOperand_of_untranslated (reservation : Bool) {e : Exc}
    (h : translate s (s.reg rs1) .store = .error e) : s.atomicReadsOperand reservation n rs1 = false := by
  cases reservation <;>
    simp [State.atomicReadsOperand, State.conditionalReadsData, State.amoReadsOperand, h]

theorem State.atomicReadsOperand_of_reservation : s.atomicReadsOperand true n rs1 = s.conditionalReadsData n rs1 := rfl

theorem State.atomicReadsOperand_of_amo : s.atomicReadsOperand false n rs1 = s.amoReadsOperand n rs1 := rfl

theorem State.conditionalReadsData_of_translated {pa : Word} (ht : translate s (s.reg rs1) .store = .ok pa)
    (ha : (s.reg rs1).toNat % n.bytes = 0) : s.conditionalReadsData n rs1 = decide (s.resv = some pa) := by
  simp [State.conditionalReadsData, ht, alignedTo, ha]

theorem State.amoReadsOperand_of_translated {pa : Word} (ht : translate s (s.reg rs1) .store = .ok pa)
    (ha : (s.reg rs1).toNat % n.bytes = 0) : s.amoReadsOperand n rs1 = (busLoad s pa n .store).isOk := by
  simp only [State.amoReadsOperand, ht, alignedTo, ha, decide_true, Bool.true_and]
  cases busLoad s pa n .store <;> rfl

end AtomicReads

/-- Settles O11: template by template an unread register does not matter, and the sources of the storing instructions
are `x[rs1]` with `x[rs2]` where they come to read it. -/
theorem unreadRegistersDoNotMatter : Obligations.UnreadRegistersDoNotMatter := by
  unfold Obligations.UnreadRegistersDoNotMatter
  refine ⟨fun i s r v h => exec_answersBut h, ?_, ?_⟩
  · intro s rs1 rs2 imm va hva f hf
    obtain rfl := (effectiveAddress_iff s rs1 imm va).1 hva
    rw [sources_storeForms _ _ _ _ f hf, State.storeReadsData_eq]
    constructor
    · rintro ⟨e, ht⟩
      rw [ht]; rfl
    · rintro ⟨pa, ht⟩
      rw [ht]; rfl
  · intro s rd rs1 rs2 aq rl f hf
    rw [sources_storingAtomics _ _ _ _ _ _ f hf]
    refine ⟨fun ha => ?_, fun ⟨e, ht⟩ => ?_, fun pa ht ha =>
      ⟨fun hres => ?_, fun hres => ⟨fun ⟨e, hb⟩ => ?_, fun ⟨x, hb⟩ => ?_⟩⟩⟩
    · rw [State.atomicReadsOperand_of_misaligned _ ha, readsOf_false]
    · rw [State.atomicReadsOperand_of_untranslated _ ht, readsOf_false]
    · rw [hres, State.atomicReadsOperand_of_reservation, State.conditionalReadsData_of_translated ht ha, readsOf]
      simp
    · rw [hres, State.atomicReadsOperand_of_amo, State.amoReadsOperand_of_translated ht ha, hb]; rfl
    · rw [hres, State.atomicReadsOperand_of_amo, State.amoReadsOperand_of_translated ht ha, hb]; rfl

end Sys2Proof.Machine
end

section
/-! The bus (20_memory.md R100, R105 to R113): which accesses it refuses, what DRAM and each device window answer, and
which loads have a side effect. -/

namespace Sys2Proof.Machine

open Sys2Proof.Safety

/-! ## Regions -/

/-- Below `DRAM_BASE` and outside every device window nothing is mapped. -/
theorem regionOf_unmapped {c : Config} {pa : Nat} (hd : pa < c.dramBase) (h1 : ¬InWindow c.clint pa)
    (h2 : ¬InWindow c.plic pa) (h3 : ¬InWindow c.uart pa) (h4 : ¬InWindow c.virtio pa) :
    regionOf c pa = .unmapped := by
  simp [regionOf, contains_iff, h1, h2, h3, h4, hd]

/-- Only an address of the console's window lies in the console. -/
theorem regionOf_eq_uart {c : Config} {pa off : Nat} (h : regionOf c pa = .uart off) :
    InWindow c.uart pa ∧ off = pa - c.uart.base := by
  unfold regionOf at h
  repeat' split at h
  all_goals simp at h
  next hw => exact ⟨(contains_iff _ _).1 hw, h.symm⟩

/-! ## Which accesses are refused -/

section Refusals

variable {c : Config} {pa : Nat} {n : Width}

theorem not_accessible_of_refused (hc : c.admissible = true) (h : Refused c pa n) : ¬Accessible c pa n := by
  obtain ⟨hw, hn⟩ | ⟨hw, hn⟩ | ⟨hw, hn⟩ | ⟨hw, hn⟩ | ⟨hd, hend⟩ | ⟨hd, h1, h2, h3, h4⟩ := h
  · simpa [Accessible, regionOf_clint hw] using hn
  · simpa [Accessible, regionOf_plic hc hw] using hn
  · simpa [Accessible, regionOf_uart hc hw] using hn
  · simpa [Accessible, regionOf_virtio hc hw] using hn
  · simp only [Accessible, regionOf_dram hc hd]
    omega
  · simp [Accessible, regionOf_unmapped hd h1 h2 h3 h4]

theorem accessible_of_not_refused (hc : c.admissible = true) (h : ¬Refused c pa n) : Accessible c pa n := by
  simp only [Refused, not_or, not_and, not_not] at h
  obtain ⟨hclint, hplic, huart, hvirtio, hdram, hmapped⟩ := h
  by_cases hd : c.dramBase ≤ pa
  · have hend := hdram hd
    simp only [Accessible, regionOf_dram hc hd]
    omega
  by_cases h1 : InWindow c.clint pa
  · simpa [Accessible, regionOf_clint h1] using hclint h1
  by_cases h2 : InWindow c.plic pa
  · simpa [Accessible, regionOf_plic hc h2] using hplic h2
  by_cases h3 : InWindow c.uart pa
  · simpa [Accessible, regionOf_uart hc h3] using huart h3
  · have h4 : InWindow c.virtio pa := hmapped (by omega) h1 h2 h3
    simpa [Accessible, regionOf_virtio hc h4] using hvirtio h4

end Refusals

section Bus

variable {s : State} {pa : Word} {n : Width} (hc : s.cfg.admissible = true) (k : AccessKind)
include hc

theorem busLoad_refused (h : Refused s.cfg pa.toNat n) : busLoad s pa n k = .error k.accessFault := by
  cases hb : busLoad s pa n k with
  | error e => rw [busLoad_error hb]
  | ok r => exact absurd ((busLoad_isOk_iff s pa n k).1 ⟨_, _, hb⟩) (not_accessible_of_refused hc h)

theorem busStore_refused (h : Refused s.cfg pa.toNat n) (v : Word) :
    busStore s pa n v k = .error k.accessFault := by
  cases hb : busStore s pa n v k with
  | error e => rw [busStore_error hb]
  | ok t => exact absurd ((busStore_isOk_iff s pa v n k).1 ⟨_, hb⟩) (not_accessible_of_refused hc h)

/-! ## The device windows -/

omit hc in
theorem busLoad_clint {off : Nat} (h : AtOffset s.cfg.clint off pa) :
    busLoad s pa .double k = .ok (s.clint.load off, s) := by
  obtain ⟨hw, rfl⟩ := inWindow_of_atOffset h
  simp [busLoad, regionOf_clint hw]

omit hc in
theorem busStore_clint {off : Nat} (h : AtOffset s.cfg.clint off pa) (v : Word) :
    busStore s pa .double v k = .ok (s.setClint (s.clint.store off v)) := by
  obtain ⟨hw, rfl⟩ := inWindow_of_atOffset h
  simp [busStore, regionOf_clint hw]

theorem busLoad_plic {off : Nat} (h : AtOffset s.cfg.plic off pa) :
    busLoad s pa .word k = .ok ((s.plic.load off).setWidth 64, s) := by
  obtain ⟨hw, rfl⟩ := inWindow_of_atOffset h
  simp [busLoad, regionOf_plic hc hw]

theorem busStore_plic {off : Nat} (h : AtOffset s.cfg.plic off pa) (v : Word) :
    busStore s pa .word v k = .ok (s.setPlic (s.plic.store off (v.setWidth 32))) := by
  obtain ⟨hw, rfl⟩ := inWindow_of_atOffset h
  simp [busStore, regionOf_plic hc hw]

theorem busLoad_virtio {off : Nat} (h : AtOffset s.cfg.virtio off pa) :
    busLoad s pa .word k = .ok ((s.virtio.load off).setWidth 64, s) := by
  obtain ⟨hw, rfl⟩ := inWindow_of_atOffset h
  simp [busLoad, regionOf_virtio hc hw]

theorem busStore_virtio {off : Nat} (h : AtOffset s.cfg.virtio off pa) (v : Word) :
    busStore s pa .word v k = .ok (s.setVirtio (s.virtio.store off (v.setWidth 32))) := by
  obtain ⟨hw, rfl⟩ := inWindow_of_atOffset h
  simp [busStore, regionOf_virtio hc hw]

end Bus

/-! ## Offsets without a register (20_memory.md R107) -/

theorem Clint.load_unassigned (c : Clint) {off : Nat} (h : off ∉ [0x4000, 0xBFF8]) : c.load off = 0 := by
  simp only [List.mem_cons, List.not_mem_nil, or_false, not_or] at h
  simp [Clint.load, h]

theorem Clint.store_unassigned (c : Clint) {off : Nat} (h : off ∉ [0x4000, 0xBFF8]) (v : Word) : c.store off v = c := by
  simp only [List.mem_cons, List.not_mem_nil, or_false, not_or] at h
  simp [Clint.store, h]

theorem Plic.load_unassigned (p : Plic) {off : Nat} (h : off ∉ (plicTable p).map Prod.fst) : p.load off = 0 := by
  simp only [plicTable, List.map, List.mem_cons, List.not_mem_nil, or_false, not_or] at h
  simp [Plic.load, h]

theorem Plic.store_unassigned (p : Plic) {off : Nat} (h : off ∉ (plicTable p).map Prod.fst) (v : BitVec 32) :
    p.store off v = p := by
  simp only [plicTable, List.map, List.mem_cons, List.not_mem_nil, or_false, not_or] at h
  simp [Plic.store, h]

theorem Virtio.load_unassigned (w : Virtio) {off : Nat} (h : off ∉ (virtioTable w).map Prod.fst) : w.load off = 0 := by
  simp only [virtioTable, List.map, List.mem_cons, List.not_mem_nil, or_false, not_or] at h
  simp [Virtio.load, h]

theorem Virtio.store_unassigned (w : Virtio) {off : Nat} (h : off ∉ (virtioTable w).map Prod.fst) (v : BitVec 32) :
    w.store off v = w := by
  simp only [virtioTable, List.map, List.mem_cons, List.not_mem_nil, or_false, not_or] at h
  simp [Virtio.store, h]

/-! ## Frames of a store to DRAM -/

theorem sameRegs_setMem (s : State) (m : List Host.Cell) : SameRegs s (s.setMem m) := fun _ => ⟨rfl, rfl⟩

theorem sameSystem_setMem (s : State) (m : List Host.Cell) : SameSystem s (s.setMem m) := by
  constructor <;> simp

theorem sameDevices_setMem (s : State) (m : List Host.Cell) : SameDevices s (s.setMem m) := by
  constructor <;> simp

/-! ## The statements -/

/-- Settles O21: inside DRAM the bus reads and writes the little-endian bytes, and past the end it refuses. -/
theorem dramAccess : Obligations.DramAccess := by
  unfold Obligations.DramAccess
  intro s pa n v k hc hbase
  refine ⟨fun hin => ⟨⟨_, busLoad_dram hc hbase hin k, readLE_toNat_eq s pa.toNat n⟩,
    _, busStore_dram hc hbase hin k, storedAt_writeLE s pa.toNat n.bytes v, sameRegs_setMem s _, rfl, rfl,
    sameSystem_setMem s _, sameDevices_setMem s _⟩, fun hend => ?_⟩
  have href : Refused s.cfg pa.toNat n := .inr (.inr (.inr (.inr (.inl ⟨hbase, hend⟩))))
  exact ⟨busLoad_refused hc k href, busStore_refused hc k href v⟩

/-- Settles O22: an access succeeds exactly where it is not refused, and an offset without a register reads 0 and keeps
the device as it is. -/
theorem busRefusals : Obligations.BusRefusals := by
  unfold Obligations.BusRefusals
  intro s pa n v k hc
  refine ⟨fun h => ⟨busLoad_refused hc k h, busStore_refused hc k h v⟩, fun h => ?_, fun off hoff hun => ?_,
    fun off hoff hun => ?_, fun off hoff hun => ?_⟩
  · have hacc := accessible_of_not_refused hc h
    exact ⟨(busLoad_isOk_iff s pa n k).2 hacc, (busStore_isOk_iff s pa v n k).2 hacc⟩
  · rw [busLoad_clint k hoff, busStore_clint k hoff, Clint.load_unassigned _ hun, Clint.store_unassigned _ hun]
    exact ⟨rfl, rfl⟩
  · rw [busLoad_plic hc k hoff, busStore_plic hc k hoff, Plic.load_unassigned _ hun, Plic.store_unassigned _ hun]
    exact ⟨rfl, rfl⟩
  · rw [busLoad_virtio hc k hoff, busStore_virtio hc k hoff, Virtio.load_unassigned _ hun,
      Virtio.store_unassigned _ hun]
    exact ⟨rfl, rfl⟩

/-- Settles O26: a load changes at most the console's registers, and what an access reaches depends on the parameters
alone, which no load changes. -/
theorem loadsAreHarmless : Obligations.LoadsAreHarmless := by
  unfold Obligations.LoadsAreHarmless
  intro s s' pa v w n k _ hload
  refine ⟨fun hne => ?_, ?_, busLoad_lt hload⟩
  · obtain rfl | ⟨hn, hregion, -⟩ := busLoad_ok hload
    · exact absurd rfl hne
    · obtain ⟨hw, hoff⟩ := regionOf_eq_uart hregion
      have hbase : s.cfg.uart.base ≤ pa.toNat := hw.1
      exact ⟨hn, by omega, hw⟩
  · rw [busStore_isOk_iff, busLoad_cfg hload]
    exact (busLoad_isOk_iff s pa n k).1 ⟨v, s', hload⟩

end Sys2Proof.Machine
end

section
/-! Translation (20_memory.md R120 to R128): what it depends on, and one level of the walk. -/

namespace Sys2Proof.Machine

open Sys2Proof.Safety

/-! ## One level of the walk, by the entry read -/

section Level

variable {s s' : State} {va a pte : Word} (k : AccessKind) {i : Nat}

theorem walk_of_refused {e : Exc} (h : busLoad s (a + (vpn va i).setWidth 64 * 8) .double .load = .error e) :
    walk s va k (i + 1) a = .error k.accessFault := by
  simp only [walk, h]

variable (h : busLoad s (a + (vpn va i).setWidth 64 * 8) .double .load = .ok (pte, s'))
include h

theorem walk_of_faulting (hf : pteFaults pte = true) : walk s va k (i + 1) a = .error k.pageFault := by
  simp only [walk, h, hf, if_true]

theorem walk_of_leaf (hf : pteFaults pte = false) (hl : pteLeaf pte = true) :
    walk s va k (i + 1) a = .ok (reconstruct pte i va) := by
  simp only [walk, h, hf, hl, Bool.false_eq_true, if_false, if_true]

theorem walk_of_pointer (hf : pteFaults pte = false) (hl : pteLeaf pte = false) :
    walk s va k (i + 1) a = walk s va k i (nextTable s.cfg pte) := by
  simp only [walk, h, hf, hl, Bool.false_eq_true, if_false]

end Level

/-! ## What translation depends on -/

/-- With paging on translation walks three levels from `pt_root`. -/
theorem translate_on {s : State} (h : s.paging = true) (va : Word) (k : AccessKind) :
    translate s va k = walk s va k 3 s.ptRoot := by
  simp only [translate, h, if_true]

/-- The low bits of a word determine every field inside them. -/
theorem extractLsb'_eq_of_mod_eq {va vb : Word} {w : Nat} (h : va.toNat % 2 ^ w = vb.toNat % 2 ^ w) {start len : Nat}
    (hle : start + len ≤ w) : va.extractLsb' start len = vb.extractLsb' start len := by
  ext j hj
  have hbit := congrArg (Nat.testBit · (start + j)) h
  simp only [Nat.testBit_mod_two_pow, show start + j < w by omega, decide_true, Bool.true_and] at hbit
  rw [BitVec.getElem_extractLsb', BitVec.getElem_extractLsb']
  exact hbit

/-- Bits 63:39 of the address are not looked at. -/
theorem translate_congr_va {s : State} {va vb : Word} (hon : s.paging = true)
    (h : va.toNat % 2 ^ 39 = vb.toNat % 2 ^ 39) (k : AccessKind) : translate s va k = translate s vb k := by
  rw [translate_on hon, translate_on hon]
  exact walk_congr_va (fun i _ => extractLsb'_eq_of_mod_eq h (by omega)) (extractLsb'_eq_of_mod_eq h (by decide)) k 3
    (Nat.le_refl 3) s.ptRoot

/-- The kind shows in the faults only. -/
theorem walk_ok_of_kind {s : State} {va pa : Word} {k : AccessKind} (j : AccessKind) {levels : Nat} {a : Word}
    (h : walk s va k levels a = .ok pa) : walk s va j levels a = .ok pa := by
  induction levels generalizing a with
  | zero => cases h
  | succ i ih =>
    cases hb : busLoad s (a + (vpn va i).setWidth 64 * 8) .double .load with
    | error e =>
      rw [walk_of_refused k hb] at h
      cases h
    | ok r =>
      cases hf : pteFaults r.1 with
      | true =>
        rw [walk_of_faulting k hb hf] at h
        cases h
      | false =>
        cases hl : pteLeaf r.1 with
        | true => rwa [walk_of_leaf j hb hf hl, ← walk_of_leaf k hb hf hl]
        | false =>
          rw [walk_of_pointer k hb hf hl] at h
          rw [walk_of_pointer j hb hf hl]
          exact ih h

theorem translate_ok_of_kind {s : State} {va pa : Word} {k : AccessKind} (j : AccessKind)
    (h : translate s va k = .ok pa) : translate s va j = .ok pa := by
  cases hp : s.paging with
  | true =>
    rw [translate_on hp] at h ⊢
    exact walk_ok_of_kind j h
  | false => rwa [translate_off hp] at h ⊢

/-- Settles O27: the walk looks at the low 39 bits and at neither the mode nor the kind, but for the fault it raises. -/
theorem translationDependsOn : Obligations.TranslationDependsOn := by
  unfold Obligations.TranslationDependsOn
  exact fun s va _ k j m => ⟨fun hoff => translate_off hoff va k, fun _ => translate_error,
    fun hon h => translate_congr_va hon h k, translate_setMode s m va k, fun _ => translate_ok_of_kind j⟩

/-! ## The numbers of a level -/

theorem vpn_toNat (va : Word) (i : Nat) : (vpn va i).toNat = va.toNat / 2 ^ (12 + 9 * i) % 512 := by
  rw [vpn, BitVec.extractLsb'_toNat, Nat.shiftRight_eq_div_pow]

/-- The address of the entry at level `i`. -/
theorem entryAddress_eq {va a ea : Word} {i : Nat}
    (h : ea.toNat = (a.toNat + 8 * (va.toNat / 2 ^ (12 + 9 * i) % 512)) % 2 ^ 64) :
    a + (vpn va i).setWidth 64 * 8 = ea := by
  rw [← vpn_toNat] at h
  have hlt := (vpn va i).isLt
  apply BitVec.eq_of_toNat_eq
  rw [h, BitVec.toNat_add, BitVec.toNat_mul, BitVec.toNat_setWidth,
    show (8 : Word).toNat = 8 from rfl]
  omega

theorem nextTable_eq {c : Config} {pte a : Word}
    (h : a.toNat = pte.toNat / 2 ^ 10 % 2 ^ 44 * c.pageSize % 2 ^ 64) : nextTable c pte = a := by
  apply BitVec.eq_of_toNat_eq
  rw [h, nextTable, BitVec.toNat_ofNat, BitVec.extractLsb'_toNat, Nat.shiftRight_eq_div_pow]

theorem pteFaults_iff (pte : Word) : pteFaults pte = true ↔ bit pte 0 = 0 ∨ (bit pte 1 = 0 ∧ bit pte 2 = 1) := by
  simp [pteFaults, pteV, pteR, pteW, bit_eq_zero_iff, bit_eq_one_iff]

theorem pteLeaf_iff (pte : Word) : pteLeaf pte = true ↔ bit pte 1 = 1 ∨ bit pte 3 = 1 := by
  simp [pteLeaf, pteR, pteX, bit_eq_one_iff]

/-- Concatenation as arithmetic. -/
theorem toNat_append_eq_mul_add {m n : Nat} (x : BitVec m) (y : BitVec n) :
    (x ++ y).toNat = x.toNat * 2 ^ n + y.toNat := by
  rw [BitVec.toNat_append, ← Nat.shiftLeft_add_eq_or_of_lt y.isLt, Nat.shiftLeft_eq]

/-- A leaf's address: the PPN with its part below level `i` from the virtual address, and the page offset (R127). -/
theorem reconstruct_toNat (pte va : Word) {i : Nat} (hi : i < 3) :
    (reconstruct pte i va).toNat =
      pte.toNat / 2 ^ 10 % 2 ^ 44 / 2 ^ (9 * i) * 2 ^ (9 * i) * 4096 + va.toNat % 2 ^ (12 + 9 * i) := by
  have hlevel : i = 0 ∨ i = 1 ∨ i = 2 := by omega
  obtain rfl | rfl | rfl := hlevel <;>
    simp only [reconstruct, BitVec.toNat_setWidth, toNat_append_eq_mul_add, vpn_toNat, BitVec.extractLsb'_toNat,
      Nat.shiftRight_eq_div_pow] <;>
    omega

/-- Settles O28: the four answers of a level, by the entry read at its address. -/
theorem walkLevel : Obligations.WalkLevel := by
  unfold Obligations.WalkLevel
  intro s va a ea k i hi hea
  rw [← entryAddress_eq hea]
  refine ⟨fun hon => translate_on hon va k, fun e hb => walk_of_refused k hb, fun pte s' hb =>
    ⟨fun hf => walk_of_faulting k hb ((pteFaults_iff pte).2 hf), fun hv hleaf => ?_, fun hv hr hw hx => ?_⟩⟩
  · have hf : pteFaults pte = false := by rw [Bool.eq_false_iff, ne_eq, pteFaults_iff]; omega
    have hl : pteLeaf pte = true := by rw [pteLeaf_iff]; omega
    exact ⟨_, walk_of_leaf k hb hf hl, reconstruct_toNat pte va hi⟩
  · have hf : pteFaults pte = false := by rw [Bool.eq_false_iff, ne_eq, pteFaults_iff]; omega
    have hl : pteLeaf pte = false := by rw [Bool.eq_false_iff, ne_eq, pteLeaf_iff]; omega
    rw [walk_of_pointer k hb hf hl]
    refine ⟨fun h0 => ?_, fun _ a' ha' => by rw [nextTable_eq ha']⟩
    subst h0
    rfl

end Sys2Proof.Machine
end

section
/-! The decoder and the encoder undo each other (30_encoding.md R162 to R183). -/

namespace Sys2Proof

/-! ## Decoding an encoded instruction -/

/-- RV64M apart, the decoder is the opcode map. -/
theorem decodeWord_eq_ok_iff {hasM : Bool} {w : BitVec 32} {i : Instr} :
    decodeWord hasM w = .ok i ↔ decodeOpcode w = .ok i ∧ i.presentIn hasM = true := by
  unfold decodeWord
  cases decodeOpcode w with
  | error e => simp
  | ok j =>
    by_cases hj : j = i
    · simp [hj]
    · simp [hj, ite_eq_iff]

/-- Each instruction's word selects its own cell of the decoder's tables, and the operands are read back. -/
theorem decodeOpcode_encode {i : Instr} (h : i.offsetOk = true) : decodeOpcode (encode i) = .ok i := by
  cases i
  case lui | auipc => simp [encode, decodeOpcode]
  case jal => simp [encode, decodeOpcode, immJOf_encJ _ _ _ h]
  case jalr => simp [encode, decodeOpcode, decodeJalr]
  case beq | bne | blt | bge | bltu | bgeu => simp [encode, decodeOpcode, decodeBranch, immBOf_encB _ _ _ _ _ h]
  case lb | lh | lw | ld | lbu | lhu | lwu => simp [encode, decodeOpcode, decodeLoad]
  case sb | sh | sw | sd => simp [encode, decodeOpcode, decodeStore]
  case addi | slti | sltiu | xori | ori | andi | slli | srli | srai => simp [encode, decodeOpcode, decodeOpImm]
  case add | sub | sll | slt | sltu | xor | srl | sra | or | and | mul | mulh | mulhsu | mulhu | div | divu | rem | remu =>
    simp [encode, decodeOpcode, decodeOp]
  case addiw | slliw | srliw | sraiw => simp [encode, decodeOpcode, decodeOpImm32]
  case addw | subw | sllw | srlw | sraw | mulw | divw | divuw | remw | remuw => simp [encode, decodeOpcode, decodeOp32]
  case fence => simp [encode, decodeOpcode, decodeMiscMem, fenceFields_encFence]
  case fenceI => simp [encode, decodeOpcode, decodeMiscMem]
  case ecall | ebreak | sret | mret | wfi | sfenceVma => simp [encode, decodeOpcode, decodeSystem, decodePrivileged]
  case csrrw | csrrs | csrrc | csrrwi | csrrsi | csrrci => simp [encode, decodeOpcode, decodeSystem]
  case lrW | scW | amoswapW | amoaddW | amoxorW | amoandW | amoorW | amominW | amomaxW | amominuW | amomaxuW =>
    simp [encode, decodeOpcode, decodeAmo, decodeAmoW]
  case lrD | scD | amoswapD | amoaddD | amoxorD | amoandD | amoorD | amominD | amomaxD | amominuD | amomaxuD =>
    simp [encode, decodeOpcode, decodeAmo, decodeAmoD]

/-- Settles O2: an instruction that is well formed has an even offset, so no bit of an operand is lost in its word. -/
theorem decodeOfEncode : Obligations.DecodeOfEncode := by
  unfold Obligations.DecodeOfEncode
  intro hasM i h
  obtain ⟨hoff, hpresent⟩ := (Bool.and_eq_true _ _).mp h
  exact decodeWord_eq_ok_iff.2 ⟨decodeOpcode_encode hoff, hpresent⟩

/-! ## A word is put together from its fields, form by form -/

section Fields

variable {w : BitVec 32} {op : BitVec 7} {f3 : BitVec 3} (hop : (opcodeOf w).toNat = op.toNat)
  (h3 : (funct3Of w).toNat = f3.toNat)

include hop in
theorem encU_of_fields : encU (immUOf w) (rdOf w) op = w := by
  obtain rfl := BitVec.eq_of_toNat_eq hop
  refine BitVec.eq_of_getLsbD_eq fun i hi => ?_
  simp only [encU, immUOf, rdOf, opcodeOf, BitVec.getLsbD_append, BitVec.getLsbD_extractLsb']
  interval_cases i <;> rfl

include hop in
theorem encJ_of_fields : encJ (immJOf w) (rdOf w) op = w := by
  obtain rfl := BitVec.eq_of_toNat_eq hop
  refine BitVec.eq_of_getLsbD_eq fun i hi => ?_
  simp only [encJ, immJOf, rdOf, opcodeOf, BitVec.getLsbD_append, BitVec.getLsbD_extractLsb']
  interval_cases i <;> rfl

include hop h3

theorem encI_of_fields : encI (immIOf w) (rs1Of w) f3 (rdOf w) op = w := by
  obtain rfl := BitVec.eq_of_toNat_eq hop
  obtain rfl := BitVec.eq_of_toNat_eq h3
  refine BitVec.eq_of_getLsbD_eq fun i hi => ?_
  simp only [encI, immIOf, rs1Of, funct3Of, rdOf, opcodeOf, BitVec.getLsbD_append, BitVec.getLsbD_extractLsb']
  interval_cases i <;> rfl

theorem encS_of_fields : encS (immSOf w) (rs2Of w) (rs1Of w) f3 op = w := by
  obtain rfl := BitVec.eq_of_toNat_eq hop
  obtain rfl := BitVec.eq_of_toNat_eq h3
  refine BitVec.eq_of_getLsbD_eq fun i hi => ?_
  simp only [encS, immSOf, rs2Of, rs1Of, funct3Of, opcodeOf, BitVec.getLsbD_append, BitVec.getLsbD_extractLsb']
  interval_cases i <;> rfl

theorem encB_of_fields : encB (immBOf w) (rs2Of w) (rs1Of w) f3 op = w := by
  obtain rfl := BitVec.eq_of_toNat_eq hop
  obtain rfl := BitVec.eq_of_toNat_eq h3
  refine BitVec.eq_of_getLsbD_eq fun i hi => ?_
  simp only [encB, immBOf, rs2Of, rs1Of, funct3Of, opcodeOf, BitVec.getLsbD_append, BitVec.getLsbD_extractLsb']
  interval_cases i <;> rfl

theorem encFence_of_fields :
    encFence (w.extractLsb' 28 4) (w.extractLsb' 24 4) (w.extractLsb' 20 4) (rs1Of w) f3 (rdOf w) op = w := by
  obtain rfl := BitVec.eq_of_toNat_eq hop
  obtain rfl := BitVec.eq_of_toNat_eq h3
  refine BitVec.eq_of_getLsbD_eq fun i hi => ?_
  simp only [encFence, rs1Of, funct3Of, rdOf, opcodeOf, BitVec.getLsbD_append, BitVec.getLsbD_extractLsb']
  interval_cases i <;> rfl

theorem encSh6_of_fields {f6 : BitVec 6} (h6 : (funct6Of w).toNat = f6.toNat) :
    encSh6 f6 (shamt6Of w) (rs1Of w) f3 (rdOf w) op = w := by
  obtain rfl := BitVec.eq_of_toNat_eq hop
  obtain rfl := BitVec.eq_of_toNat_eq h3
  obtain rfl := BitVec.eq_of_toNat_eq h6
  refine BitVec.eq_of_getLsbD_eq fun i hi => ?_
  simp only [encSh6, funct6Of, shamt6Of, rs1Of, funct3Of, rdOf, opcodeOf, BitVec.getLsbD_append, BitVec.getLsbD_extractLsb']
  interval_cases i <;> rfl

theorem encR_of_fields {f7 : BitVec 7} {rs2 : RegIdx} (h7 : (funct7Of w).toNat = f7.toNat)
    (h2 : (rs2Of w).toNat = rs2.toNat) : encR f7 rs2 (rs1Of w) f3 (rdOf w) op = w := by
  obtain rfl := BitVec.eq_of_toNat_eq hop
  obtain rfl := BitVec.eq_of_toNat_eq h3
  obtain rfl := BitVec.eq_of_toNat_eq h7
  obtain rfl := BitVec.eq_of_toNat_eq h2
  refine BitVec.eq_of_getLsbD_eq fun i hi => ?_
  simp only [encR, funct7Of, rs2Of, rs1Of, funct3Of, rdOf, opcodeOf, BitVec.getLsbD_append, BitVec.getLsbD_extractLsb']
  interval_cases i <;> rfl

end Fields

theorem encAmo_of_fields {w : BitVec 32} {f5 : BitVec 5} {f3 : BitVec 3} {rs2 : RegIdx}
    (hop : (opcodeOf w).toNat = 0x2F) (h3 : (funct3Of w).toNat = f3.toNat) (h5 : (funct5Of w).toNat = f5.toNat)
    (h2 : rs2Of w = rs2) : encAmo f5 (aqOf w) (rlOf w) rs2 (rs1Of w) f3 (rdOf w) = w := by
  have hop' : opcodeOf w = 0x2F#7 := BitVec.eq_of_toNat_eq hop
  obtain rfl := BitVec.eq_of_toNat_eq h3
  obtain rfl := BitVec.eq_of_toNat_eq h5
  subst h2
  rw [encAmo, ← hop']
  refine BitVec.eq_of_getLsbD_eq fun i hi => ?_
  simp only [funct5Of, aqOf, rlOf, rs2Of, rs1Of, funct3Of, rdOf, opcodeOf, BitVec.getLsbD_append,
    BitVec.getLsbD_extractLsb', BitVec.getLsbD_ofBool]
  interval_cases i <;> simp

/-- The branch offset the decoder reads is even. -/
theorem evenOffset_immBOf (w : BitVec 32) : evenOffset (immBOf w) = true := by
  rw [evenOffset, immBOf, BitVec.getLsbD_append]
  rfl

/-- The jump offset the decoder reads is even. -/
theorem evenOffset_immJOf (w : BitVec 32) : evenOffset (immJOf w) = true := by
  rw [evenOffset, immJOf, BitVec.getLsbD_append]
  rfl

/-! ## Encoding a decoded instruction -/

/-- `w` is the word of `i`, whose offset is one that a word can hold. -/
def Instr.HasWord (i : Instr) (w : BitVec 32) : Prop := i.offsetOk = true ∧ encode i = w

section Decoders

variable {w : BitVec 32} {i : Instr}

theorem hasWord_of_decodeJalr (hop : (opcodeOf w).toNat = 0x67) (h : decodeJalr w = .ok i) : i.HasWord w := by
  unfold decodeJalr at h
  split at h <;> cases h
  exact ⟨rfl, encI_of_fields hop ‹_›⟩

theorem hasWord_of_decodeBranch (hop : (opcodeOf w).toNat = 0x63) (h : decodeBranch w = .ok i) : i.HasWord w := by
  unfold decodeBranch at h
  split at h <;> cases h
  all_goals exact ⟨evenOffset_immBOf w, encB_of_fields hop ‹_›⟩

theorem hasWord_of_decodeLoad (hop : (opcodeOf w).toNat = 0x03) (h : decodeLoad w = .ok i) : i.HasWord w := by
  unfold decodeLoad at h
  split at h <;> cases h
  all_goals exact ⟨rfl, encI_of_fields hop ‹_›⟩

theorem hasWord_of_decodeStore (hop : (opcodeOf w).toNat = 0x23) (h : decodeStore w = .ok i) : i.HasWord w := by
  unfold decodeStore at h
  split at h <;> cases h
  all_goals exact ⟨rfl, encS_of_fields hop ‹_›⟩

/-- The last arm of OP-IMM has the one funct3 that is left. -/
theorem eq_five_of_ne {f : BitVec 3} (n0 : f.toNat ≠ 0) (n1 : f.toNat ≠ 1) (n2 : f.toNat ≠ 2) (n3 : f.toNat ≠ 3)
    (n4 : f.toNat ≠ 4) (n6 : f.toNat ≠ 6) (n7 : f.toNat ≠ 7) : f.toNat = 5 := by
  have := f.isLt
  omega

theorem hasWord_of_decodeOpImm (hop : (opcodeOf w).toNat = 0x13) (h : decodeOpImm w = .ok i) : i.HasWord w := by
  unfold decodeOpImm at h
  split at h
  case h_7 => -- funct3 = 1
    split at h <;> cases h
    exact ⟨rfl, encSh6_of_fields hop ‹_› ‹_›⟩
  case h_8 n0 n2 n3 n4 n6 n7 n1 => -- funct3 = 5
    have h3 := eq_five_of_ne n0 n1 n2 n3 n4 n6 n7
    split at h <;> cases h
    all_goals exact ⟨rfl, encSh6_of_fields hop h3 ‹_›⟩
  all_goals cases h; exact ⟨rfl, encI_of_fields hop ‹_›⟩

theorem hasWord_of_decodeOp (hop : (opcodeOf w).toNat = 0x33) (h : decodeOp w = .ok i) : i.HasWord w := by
  unfold decodeOp at h
  split at h <;> cases h
  all_goals exact ⟨rfl, encR_of_fields hop ‹_› ‹_› rfl⟩

theorem hasWord_of_decodeOpImm32 (hop : (opcodeOf w).toNat = 0x1B) (h : decodeOpImm32 w = .ok i) : i.HasWord w := by
  unfold decodeOpImm32 at h
  split at h
  case h_1 => cases h; exact ⟨rfl, encI_of_fields hop ‹_›⟩
  case h_4 => cases h
  all_goals
    split at h <;> cases h
    all_goals exact ⟨rfl, encR_of_fields hop ‹_› ‹_› rfl⟩

theorem hasWord_of_decodeOp32 (hop : (opcodeOf w).toNat = 0x3B) (h : decodeOp32 w = .ok i) : i.HasWord w := by
  unfold decodeOp32 at h
  split at h <;> cases h
  all_goals exact ⟨rfl, encR_of_fields hop ‹_› ‹_› rfl⟩

theorem hasWord_of_decodeMiscMem (hop : (opcodeOf w).toNat = 0x0F) (h : decodeMiscMem w = .ok i) : i.HasWord w := by
  unfold decodeMiscMem at h
  split at h <;> cases h
  · exact ⟨rfl, encFence_of_fields hop ‹_›⟩
  · exact ⟨rfl, encI_of_fields hop ‹_›⟩

theorem hasWord_of_decodePrivileged (hop : (opcodeOf w).toNat = 0x73) (h3 : (funct3Of w).toNat = 0)
    (h : decodePrivileged w = .ok i) : i.HasWord w := by
  unfold decodePrivileged at h
  split at h <;> cases h
  case h_6 => exact ⟨rfl, encR_of_fields hop h3 ‹_› rfl⟩
  all_goals exact ⟨rfl, encR_of_fields hop h3 ‹_› ‹_›⟩

theorem hasWord_of_decodeSystem (hop : (opcodeOf w).toNat = 0x73) (h : decodeSystem w = .ok i) : i.HasWord w := by
  unfold decodeSystem at h
  split at h
  case h_1 h3 => exact hasWord_of_decodePrivileged hop h3 h
  all_goals cases h
  all_goals exact ⟨rfl, encI_of_fields hop ‹_›⟩

theorem hasWord_of_decodeAmoW (hop : (opcodeOf w).toNat = 0x2F) (h3 : (funct3Of w).toNat = 2)
    (h : decodeAmoW w = .ok i) : i.HasWord w := by
  unfold decodeAmoW at h
  split at h
  case h_1 h5 =>
    split at h <;> cases h
    exact ⟨rfl, encAmo_of_fields hop h3 h5 ‹_›⟩
  all_goals cases h
  all_goals exact ⟨rfl, encAmo_of_fields hop h3 ‹_› rfl⟩

theorem hasWord_of_decodeAmoD (hop : (opcodeOf w).toNat = 0x2F) (h3 : (funct3Of w).toNat = 3)
    (h : decodeAmoD w = .ok i) : i.HasWord w := by
  unfold decodeAmoD at h
  split at h
  case h_1 h5 =>
    split at h <;> cases h
    exact ⟨rfl, encAmo_of_fields hop h3 h5 ‹_›⟩
  all_goals cases h
  all_goals exact ⟨rfl, encAmo_of_fields hop h3 ‹_› rfl⟩

theorem hasWord_of_decodeAmo (hop : (opcodeOf w).toNat = 0x2F) (h : decodeAmo w = .ok i) : i.HasWord w := by
  unfold decodeAmo at h
  split at h
  next h3 => exact hasWord_of_decodeAmoW hop h3 h
  next h3 => exact hasWord_of_decodeAmoD hop h3 h
  next => cases h

/-- What a word decodes to has that word. -/
theorem hasWord_of_decodeOpcode (h : decodeOpcode w = .ok i) : i.HasWord w := by
  unfold decodeOpcode at h
  split at h
  case h_1 | h_2 => cases h; exact ⟨rfl, encU_of_fields ‹_›⟩
  case h_3 => cases h; exact ⟨evenOffset_immJOf w, encJ_of_fields ‹_›⟩
  case h_4 hop => exact hasWord_of_decodeJalr hop h
  case h_5 hop => exact hasWord_of_decodeBranch hop h
  case h_6 hop => exact hasWord_of_decodeLoad hop h
  case h_7 hop => exact hasWord_of_decodeStore hop h
  case h_8 hop => exact hasWord_of_decodeOpImm hop h
  case h_9 hop => exact hasWord_of_decodeOp hop h
  case h_10 hop => exact hasWord_of_decodeOpImm32 hop h
  case h_11 hop => exact hasWord_of_decodeOp32 hop h
  case h_12 hop => exact hasWord_of_decodeMiscMem hop h
  case h_13 hop => exact hasWord_of_decodeSystem hop h
  case h_14 hop => exact hasWord_of_decodeAmo hop h
  case h_15 => cases h

end Decoders

/-- Settles O3: the decoder keeps every field of the word, so the encoder puts the word together again. -/
theorem encodeOfDecode : Obligations.EncodeOfDecode := by
  unfold Obligations.EncodeOfDecode
  intro hasM w i h
  obtain ⟨hd, hpresent⟩ := decodeWord_eq_ok_iff.1 h
  obtain ⟨hoff, hw⟩ := hasWord_of_decodeOpcode hd
  exact ⟨(Bool.and_eq_true _ _).mpr ⟨hoff, hpresent⟩, hw⟩

/-- Settles O1, by running the decoder on each word. -/
theorem decodesKnownWords : Obligations.DecodesKnownWords := by
  unfold Obligations.DecodesKnownWords
  decide

end Sys2Proof
end

section
/-! Taking a trap (60_exceptions.md R460 to R463): the state after `takeTrap` is the one `TrapTaken` describes. -/

namespace Sys2Proof.Machine

open Sys2Proof.Safety

/-- The base of a trap vector. -/
theorem toNat_clearBit0 (v : Word) : (v &&& ~~~1#64).toNat = v.toNat / 2 * 2 := by
  have h : v &&& ~~~1#64 = v >>> 1 <<< 1 := by
    refine BitVec.eq_of_getLsbD_eq fun i hi => ?_
    cases i <;> simp [-BitVec.reduceNot, -BitVec.getLsbD_eq_getElem, hi, Nat.add_comm 1]
  have := v.isLt
  rw [h, BitVec.toNat_shiftLeft, BitVec.toNat_ushiftRight, Nat.shiftLeft_eq, Nat.shiftRight_eq_div_pow]
  omega

/-- The target of R463, as a number. -/
theorem vectorTarget_trapTarget (tvec : Word) (tr : Trap) :
    VectorTarget tvec tr.code tr.isInterrupt (trapTarget tvec tr) := by
  have hv : tvec.getLsbD 0 = decide (tvec.toNat % 2 = 1) := by simp [BitVec.getLsbD]
  have := tvec.isLt
  simp only [VectorTarget, trapTarget, hv, Bool.and_eq_true, decide_eq_true_eq]
  split
  · rw [BitVec.toNat_add, toNat_clearBit0, BitVec.toNat_ofNat]; omega
  · rw [toNat_clearBit0]; omega

theorem Mode.bits_getLsbD_zero (m : Mode) : m.bits.getLsbD 0 = decide (m ≠ .user) := by cases m <;> rfl

theorem Mode.bits_getLsbD_one (m : Mode) : m.bits.getLsbD 1 = decide (m = .machine) := by cases m <;> rfl

/-- The choice of R461. -/
theorem State.delegated_iff (s : State) (tr : Trap) :
    s.delegated tr = true ↔ s.mode ≠ .machine ∧ (s.csrRaw Csr.medeleg).getLsbD tr.code = true := by
  simp [State.delegated]

/-- A trap changes no more than the CSRs it saves to, the mode, the pc and the reservation (R465). -/
theorem trapFrame_takeTrap {saved : List CsrNum} {s : State} {tr : Trap}
    (h : ∀ a, a ∉ saved → (s.takeTrap tr).csrRaw a = s.csrRaw a) : TrapFrame saved s (s.takeTrap tr) where
  regs r := by simp
  memory a := by simp
  devices := by constructor <;> simp
  cfg := by simp
  paging := by simp
  ptRoot := by simp
  input := by simp
  csr := h

theorem enteredM_takeTrap {s : State} {tr : Trap} (h : s.delegated tr = false) :
    EnteredM s tr.code tr.isInterrupt tr.cause (s.trapEpc tr) (s.takeTrap tr) := by
  have hcsr (a : CsrNum) : (s.takeTrap tr).csrRaw a = (s.enterM tr).csrRaw a := by simp [State.takeTrap_notDelegated h]
  constructor
  case status =>
    intro i hi
    rw [hcsr, State.enterM_csrRaw, if_pos rfl, getLsbD_mstatusOnEntry _ _ _ hi, Mode.bits_getLsbD_zero,
      Mode.bits_getLsbD_one]
    grind
  case frame => exact trapFrame_takeTrap fun a ha => by simp_all [State.enterM_csrRaw]
  case pc => simpa [State.takeTrap_notDelegated h] using vectorTarget_trapTarget _ tr
  case epc | cause | tval => rw [hcsr, State.enterM_csrRaw]; rfl
  all_goals simp [State.takeTrap_notDelegated h]

theorem enteredS_takeTrap {s : State} {tr : Trap} (h : s.delegated tr = true) :
    EnteredS s tr.code tr.isInterrupt tr.cause (s.trapEpc tr) (s.takeTrap tr) := by
  have hcsr (a : CsrNum) : (s.takeTrap tr).csrRaw a = (s.enterS tr).csrRaw a := by simp [State.takeTrap_delegated h]
  constructor
  case status =>
    intro i hi
    rw [hcsr, State.enterS_csrRaw, if_pos rfl, getLsbD_sstatusOnEntry _ _ _ hi, beq_eq_decide]
    grind
  case frame => exact trapFrame_takeTrap fun a ha => by simp_all [State.enterS_csrRaw]
  case pc => simpa [State.takeTrap_delegated h] using vectorTarget_trapTarget _ tr
  case epc | cause | tval => rw [hcsr, State.enterS_csrRaw]; rfl
  all_goals simp [State.takeTrap_delegated h]

/-- Taking a trap enters the mode that handles it. -/
theorem trapTaken_takeTrap (s : State) (tr : Trap) :
    TrapTaken s tr.code tr.isInterrupt tr.cause (s.trapEpc tr) (s.takeTrap tr) := by
  unfold TrapTaken
  split
  next h => exact enteredS_takeTrap ((s.delegated_iff tr).2 h)
  next h => exact enteredM_takeTrap (Bool.eq_false_iff.2 (mt (s.delegated_iff tr).1 h))

end Sys2Proof.Machine
end

section
/-! The opcode table (30_encoding.md R183, R185): the row of the decoded instruction is the one row a word matches, and a
word without a row raises IllegalInstruction. -/

namespace Sys2Proof

/-! ## The row of a decoded instruction -/

/-- `(w & r.mask) == r.match` (R183). -/
theorem OpcodeRow.matchesWord_iff (r : OpcodeRow) (w : BitVec 32) : r.matchesWord w = true ↔ w &&& r.mask = r.value :=
  beq_iff_eq

theorem row_mem_opcodeTable (i : Instr) : i.row ∈ opcodeTable := by
  simp only [opcodeTable, List.mem_append, or_assoc]
  cases i
  case lui | auipc | jal | jalr | beq | bne | blt | bge | bltu | bgeu => exact .inl (List.mem_of_elem_eq_true rfl)
  case lb | lh | lw | ld | lbu | lhu | lwu | sb | sh | sw | sd => exact .inr (.inl (List.mem_of_elem_eq_true rfl))
  case addi | slti | sltiu | xori | ori | andi | slli | srli | srai | add | sub | sll | slt | sltu | xor | srl | sra | or
      | and =>
    exact .inr (.inr (.inl (List.mem_of_elem_eq_true rfl)))
  case addiw | slliw | srliw | sraiw | addw | subw | sllw | srlw | sraw =>
    exact .inr (.inr (.inr (.inl (List.mem_of_elem_eq_true rfl))))
  case mul | mulh | mulhsu | mulhu | div | divu | rem | remu | mulw | divw | divuw | remw | remuw =>
    exact .inr (.inr (.inr (.inr (.inl (List.mem_of_elem_eq_true rfl)))))
  case fence | fenceI | ecall | ebreak | sret | mret | wfi | sfenceVma | csrrw | csrrs | csrrc | csrrwi | csrrsi | csrrci =>
    exact .inr (.inr (.inr (.inr (.inr (.inl (List.mem_of_elem_eq_true rfl))))))
  all_goals exact .inr (.inr (.inr (.inr (.inr (.inr (List.mem_of_elem_eq_true rfl))))))

/-- The encoder writes the fixed bits of the instruction's row: the laws of Laws/PerInstr.lean for every form. -/
theorem row_matchesWord_encode (i : Instr) : i.row.matchesWord (encode i) = true := by
  rw [OpcodeRow.matchesWord_iff]
  cases i
  case lui | auipc => exact encU_fixed _ _ _
  case jal => exact encJ_fixed _ _ _
  case beq | bne | blt | bge | bltu | bgeu => exact encB_fixed _ _ _ _ _
  case sb | sh | sw | sd => exact encS_fixed _ _ _ _ _
  case slli | srli | srai => exact encSh6_fixed _ _ _ _ _ _
  case add | sub | sll | slt | sltu | xor | srl | sra | or | and | slliw | srliw | sraiw | addw | subw | sllw | srlw | sraw
      | mul | mulh | mulhsu | mulhu | div | divu | rem | remu | mulw | divw | divuw | remw | remuw | sfenceVma =>
    exact encR_fixed _ _ _ _ _ _
  case ecall | ebreak | sret | mret | wfi => exact encR_fixed12 _ _ _ _ _ _
  case fence => exact encFence_fixed _ _ _ _ _ _ _
  case lrW | lrD => exact encAmo_fixed_lr _ _ _ _ _ _ _
  case scW | amoswapW | amoaddW | amoxorW | amoandW | amoorW | amominW | amomaxW | amominuW | amomaxuW
      | scD | amoswapD | amoaddD | amoxorD | amoandD | amoorD | amominD | amomaxD | amominuD | amomaxuD =>
    exact encAmo_fixed _ _ _ _ _ _ _
  all_goals exact encI_fixed _ _ _ _ _

/-- A word matches the row of what it decodes to. -/
theorem row_matchesWord_of_decodeOpcode {w : BitVec 32} {i : Instr} (h : decodeOpcode w = .ok i) :
    i.row.matchesWord w = true := by
  obtain ⟨-, rfl⟩ := hasWord_of_decodeOpcode h
  exact row_matchesWord_encode i

/-! ## The decoding of a word that matches a row -/

section Fields

variable {r : OpcodeRow} {w : BitVec 32} (h : r.matchesWord w = true)
include h

/-- A field that the mask covers is the row's. -/
theorem extractLsb'_of_matchesWord {start len : Nat} (hm : r.mask.extractLsb' start len = BitVec.allOnes len) :
    w.extractLsb' start len = r.value.extractLsb' start len := by
  rw [← (r.matchesWord_iff w).1 h, BitVec.extractLsb'_and, hm, BitVec.and_allOnes]

theorem opcodeOf_of_matchesWord (hm : r.mask.extractLsb' 0 7 = BitVec.allOnes 7) :
    opcodeOf w = r.value.extractLsb' 0 7 := extractLsb'_of_matchesWord h hm

theorem funct3Of_of_matchesWord (hm : r.mask.extractLsb' 12 3 = BitVec.allOnes 3) :
    funct3Of w = r.value.extractLsb' 12 3 := extractLsb'_of_matchesWord h hm

theorem rs2Of_of_matchesWord (hm : r.mask.extractLsb' 20 5 = BitVec.allOnes 5) :
    rs2Of w = r.value.extractLsb' 20 5 := extractLsb'_of_matchesWord h hm

theorem funct7Of_of_matchesWord (hm : r.mask.extractLsb' 25 7 = BitVec.allOnes 7) :
    funct7Of w = r.value.extractLsb' 25 7 := extractLsb'_of_matchesWord h hm

theorem funct6Of_of_matchesWord (hm : r.mask.extractLsb' 26 6 = BitVec.allOnes 6) :
    funct6Of w = r.value.extractLsb' 26 6 := extractLsb'_of_matchesWord h hm

theorem funct5Of_of_matchesWord (hm : r.mask.extractLsb' 27 5 = BitVec.allOnes 5) :
    funct5Of w = r.value.extractLsb' 27 5 := extractLsb'_of_matchesWord h hm

/-- Row by row: the fields the row fixes select its cell of the decoder's tables. -/
theorem decodeOpcode_row_of_matchesWord (hr : r ∈ opcodeTable) : (decodeOpcode w).map Instr.row = .ok r := by
  simp only [opcodeTable, opcodeRowsBase, opcodeRowsLoadStore, opcodeRowsInteger, opcodeRowsWord, opcodeRowsMulDiv,
    opcodeRowsSystem, opcodeRowsAtomic, List.cons_append, List.nil_append] at hr
  fin_cases hr <;>
    simp [opcodeOf_of_matchesWord h, funct3Of_of_matchesWord h, rs2Of_of_matchesWord h, funct7Of_of_matchesWord h,
      funct6Of_of_matchesWord h, funct5Of_of_matchesWord h, decodeOpcode, decodeJalr, decodeBranch, decodeLoad,
      decodeStore, decodeOpImm, decodeOp, decodeOpImm32, decodeOp32, decodeMiscMem, decodeSystem, decodePrivileged,
      decodeAmo, decodeAmoW, decodeAmoD, Except.map, Instr.row]

/-- A word that matches a row decodes to an instruction of that row. -/
theorem exists_decodeOpcode_of_matchesWord (hr : r ∈ opcodeTable) : ∃ i, i.row = r ∧ decodeOpcode w = .ok i := by
  have hrow := decodeOpcode_row_of_matchesWord h hr
  cases hd : decodeOpcode w with
  | error e => rw [hd] at hrow; cases hrow
  | ok i => rw [hd] at hrow; exact ⟨i, Except.ok.inj hrow, rfl⟩

end Fields

/-- The rows are disjoint: each is the row of the one instruction the word decodes to. -/
theorem row_unique {r q : OpcodeRow} {w : BitVec 32} (hr : r ∈ opcodeTable) (hq : q ∈ opcodeTable)
    (h : r.matchesWord w = true) (h' : q.matchesWord w = true) : r = q :=
  Except.ok.inj ((decodeOpcode_row_of_matchesWord h hr).symm.trans (decodeOpcode_row_of_matchesWord h' hq))

/-! ## Illegal words -/

/-- A word without a row decodes to nothing. -/
theorem decodeWord_ne_ok_of_no_row {w : BitVec 32} (h : ∀ r ∈ opcodeTable, r.matchesWord w = false) (hasM : Bool)
    (i : Instr) : decodeWord hasM w ≠ .ok i := fun hi =>
  have hmatch := row_matchesWord_of_decodeOpcode (decodeWord_eq_ok_iff.1 hi).1
  Bool.false_ne_true ((h _ (row_mem_opcodeTable i)).symm.trans hmatch)

/-- An RV64M word decodes to nothing without RV64M. -/
theorem decodeWord_false_ne_ok_of_isMulDiv {w : BitVec 32} {j : Instr} (hj : decodeWord true w = .ok j)
    (hm : j.isMulDiv = true) (i : Instr) : decodeWord false w ≠ .ok i := by
  intro hi
  obtain ⟨hdj, -⟩ := decodeWord_eq_ok_iff.1 hj
  obtain ⟨hdi, hpresent⟩ := decodeWord_eq_ok_iff.1 hi
  obtain rfl : j = i := Except.ok.inj (hdj.symm.trans hdi)
  simp [Instr.presentIn, hm] at hpresent

end Sys2Proof

namespace Sys2Proof.Machine

open Sys2Proof.Safety

/-- A word that decodes to nothing has IllegalInstruction delivered on the state it is executed in. -/
theorem executeWord_of_not_decodes {w : BitVec 32} {s : State} (h : ∀ i, decodeWord s.cfg.hasM w ≠ .ok i) :
    executeWord w s = .next (s.deliver .illegalInstruction) := by
  unfold executeWord
  cases hd : decodeWord s.cfg.hasM w with
  | error e => rfl
  | ok i => exact absurd hd (h i)

/-- IllegalInstruction has code 2 and is not fatal. -/
theorem trapTaken_illegalInstruction (s : State) :
    TrapTaken s 2 false 2 (s.pc - 4) (s.deliver .illegalInstruction) :=
  trapTaken_takeTrap s (.exc .illegalInstruction)

/-- Settles O4: the decoder gives the row back, so a word has at most one, and what it decodes has a row. -/
theorem decoderFollowsOpcodeTable : Obligations.DecoderFollowsOpcodeTable := by
  unfold Obligations.DecoderFollowsOpcodeTable
  refine ⟨rfl, fun w => ⟨fun r hr q hq h h' => row_unique hr hq h h', fun r hr h => ?_, fun s hs => ?_⟩⟩
  · obtain ⟨i, hrow, hd⟩ := exists_decodeOpcode_of_matchesWord h hr
    exact ⟨i, hrow, decodeWord_eq_ok_iff.2 ⟨hd, rfl⟩,
      fun hm => decodeWord_eq_ok_iff.2 ⟨hd, by simp [Instr.presentIn, hm]⟩⟩
  · have hillegal : ∀ i, decodeWord s.cfg.hasM w ≠ .ok i := by
      rcases hs with hno | ⟨hM, j, hj, hm⟩
      · exact decodeWord_ne_ok_of_no_row hno _
      · rw [hM]
        exact decodeWord_false_ne_ok_of_isMulDiv hj hm
    exact ⟨_, executeWord_of_not_decodes hillegal, trapTaken_illegalInstruction s, s.deliver_halted _⟩

end Sys2Proof.Machine
end

section
/-! What a fetch gives, how an exception ends its step, and that nothing else halts the machine
(40_fetch_and_step.md R200 to R207, R210). -/

namespace Sys2Proof.Machine

open Sys2Proof.Safety

/-! ## The word fetched -/

theorem Plic.load_of_registerAt {p : Plic} {off : Nat} {w : BitVec 32} (h : RegisterAt (plicTable p) off w) :
    p.load off = w := by
  have htable : ∀ q ∈ plicTable p, p.load q.1 = q.2 := by simp [plicTable, Plic.load]
  obtain hmem | ⟨hun, rfl⟩ := h
  · exact htable _ hmem
  · exact p.load_unassigned hun

theorem Virtio.load_of_registerAt {v : Virtio} {off : Nat} {w : BitVec 32} (h : RegisterAt (virtioTable v) off w) :
    v.load off = w := by
  have htable : ∀ q ∈ virtioTable v, v.load q.1 = q.2 := by simp [virtioTable, Virtio.load]
  obtain hmem | ⟨hun, rfl⟩ := h
  · exact htable _ hmem
  · exact v.load_unassigned hun

/-- Where an instruction word lies the bus reads it, zero-extended. -/
theorem busLoad_of_wordAt {s : State} {pa : Word} {w : BitVec 32} (hc : s.cfg.admissible = true) (k : AccessKind)
    (h : WordAt s pa w) : busLoad s pa .word k = .ok (w.setWidth 64, s) := by
  obtain ⟨⟨hbase, hend⟩, hw⟩ | ⟨off, hoff, hreg⟩ | ⟨off, hoff, hreg⟩ := h
  · have hword : Memory.readLE s.mem pa.toNat Width.word.bytes = w.setWidth 64 :=
      BitVec.eq_of_toNat_eq <| by
        rw [readLE_toNat_eq, BitVec.toNat_setWidth_of_le (by decide), hw]
        rfl
    rw [busLoad_dram (n := .word) hc hbase hend k, hword]
  · rw [busLoad_plic hc k hoff, Plic.load_of_registerAt hreg]
  · rw [busLoad_virtio hc k hoff, Virtio.load_of_registerAt hreg]

theorem fetch_of_wordAt {s : State} {pa : Word} {w : BitVec 32} (hc : s.cfg.admissible = true)
    (ht : translate s s.pc .fetch = .ok pa) (h : WordAt s pa w) : fetch s = .ok w := by
  simp [fetch, ht, busLoad_of_wordAt hc .fetch h, low32]

/-- A fetch fails only with the two faults of its kind (R202, R203). -/
theorem fetch_error {s : State} {e : Exc} (h : fetch s = .error e) :
    e = .instructionAccessFault ∨ e = .instructionPageFault := by
  unfold fetch at h
  split at h
  · next ht => cases h; exact (translate_error ht).symm
  · split at h
    · next hb => cases h; exact .inl (busLoad_error hb)
    · cases h

/-! ## Delivered exceptions -/

/-- Whether the machine has halted is no part of a trap's entry. -/
theorem trapTaken_setHalted {s t : State} {code : Nat} {isInterrupt : Bool} {cause epc : Word}
    (h : TrapTaken s code isInterrupt cause epc t) (b : Bool) :
    TrapTaken s code isInterrupt cause epc (t.setHalted b) := by
  have hframe {saved : List CsrNum} (hf : TrapFrame saved s t) : TrapFrame saved s (t.setHalted b) :=
    { hf with devices := { hf.devices with } }
  unfold TrapTaken at h ⊢
  split at h
  · next hd =>
    rw [if_pos hd]
    exact { h with frame := hframe h.frame }
  · next hd =>
    rw [if_neg hd]
    exact { h with frame := hframe h.frame }

/-- An exception is delivered as a trap with its code, the address of the instruction saved. -/
theorem trapTaken_deliver (s : State) (e : Exc) :
    TrapTaken s e.code false (BitVec.ofNat 64 e.code) (s.pc - 4) (s.deliver e) := by
  have htrap := trapTaken_takeTrap s (.exc e)
  unfold State.deliver
  split
  · exact trapTaken_setHalted htrap true
  · exact htrap

/-- The mode a trap enters holds its cause. -/
theorem cause_of_trapTaken {s t : State} {code : Nat} {isInterrupt : Bool} {cause epc : Word}
    (h : TrapTaken s code isInterrupt cause epc t) :
    (t.mode = .machine ∧ t.csrRaw Csr.mcause = cause) ∨ (t.mode = .supervisor ∧ t.csrRaw Csr.scause = cause) := by
  unfold TrapTaken at h
  split at h
  · exact .inr ⟨h.mode, h.cause⟩
  · exact .inl ⟨h.mode, h.cause⟩

/-- The fatal causes by their codes (60_exceptions.md R455). -/
theorem Exc.fatal_iff_code_mem (e : Exc) : e.fatal = true ↔ e.code ∈ [0, 1, 5, 6, 7] := by
  cases e <;> decide

/-- After an exception the global enable of the mode entered is clear. -/
theorem interruptEnable_deliver (s : State) (e : Exc) : (s.deliver e).interruptEnable = false := by
  rw [← interruptEnable_takeTrap s (.exc e)]
  simp only [State.interruptEnable, State.deliver_mode, State.deliver_csrRaw]

/-! ## The end of a step -/

@[simp] theorem consoleSlot_halted (s : State) : (consoleSlot s).halted = s.halted := by
  obtain ⟨u, i, h⟩ := consoleSlot_eq s
  rw [h]; rfl

@[simp] theorem consoleSlot_interruptEnable (s : State) : (consoleSlot s).interruptEnable = s.interruptEnable := by
  obtain ⟨u, i, h⟩ := consoleSlot_eq s
  rw [h]; rfl

theorem phaseB_of_halted {s : State} (h : s.halted = true) : phaseB s = .next s := by
  simp only [phaseB, h, if_true]

theorem phaseB_of_running {s : State} (h : s.halted = false) : phaseB s = interruptCheck (consoleSlot s) := by
  simp only [phaseB, h, Bool.false_eq_true, if_false]

section Delivery

variable {s s1 : State} {e : Exc} (hc : s.cfg.admissible = true) (hh : s.halted = false)
  (hA : phaseA (consoleSlot s) = .next (s1.deliver e))
include hc hh hA

/-- A fatal exception ends the step halted (R206). -/
theorem step_of_deliver_fatal (hfatal : e.fatal = true) : step s = .next (s1.deliver e) := by
  rw [step_of_running hc hh, runStep_of_next hA]
  exact phaseB_of_halted (by simp [hfatal])

/-- Any other exception ends the step with no interrupt enabled (R207). -/
theorem step_of_deliver_nonfatal (h1 : s1.halted = false) (hfatal : e.fatal = false) :
    step s = .next (consoleSlot (s1.deliver e)) := by
  rw [step_of_running hc hh, runStep_of_next hA, phaseB_of_running (by simp [hfatal, h1])]
  exact interruptCheck_disabled (by rw [consoleSlot_interruptEnable, interruptEnable_deliver])

end Delivery

/-- Settles O9: the step ends with the delivery, which left the global enable of the mode entered clear. -/
theorem noInterruptAfterException : Obligations.NoInterruptAfterException := by
  unfold Obligations.NoInterruptAfterException
  intro s s1 e hc hh h1 hA
  refine ⟨?_, interruptCheck_disabled (interruptEnable_deliver s1 e)⟩
  split
  · next hfatal => exact step_of_deliver_fatal hc hh hA hfatal
  · next hfatal => exact step_of_deliver_nonfatal hc hh hA h1 (Bool.eq_false_iff.2 hfatal)

/-! ## Fetch faults and decoded instructions -/

/-- The pc advances past a fetch that faults, so the address saved is the one fetched from (R202). -/
theorem phaseA_of_fetch_error {s : State} {e : Exc} (h : fetch s = .error e) :
    phaseA s = .next ((s.setPc (s.pc + 4)).deliver e) := by
  simp only [phaseA, h]
  rfl

/-- Settles O8: a fetch fails with one of two faults, and its delivery ends the step. -/
theorem fetchFaultIsDelivered : Obligations.FetchFaultIsDelivered := by
  unfold Obligations.FetchFaultIsDelivered
  rintro s s0 e hc hh rfl hf
  have hrun : ((consoleSlot s).setPc ((consoleSlot s).pc + 4)).halted = false := by simp [hh]
  have hA := phaseA_of_fetch_error hf
  have htrap := trapTaken_deliver ((consoleSlot s).setPc ((consoleSlot s).pc + 4)) e
  rw [State.setPc_pc, BitVec.add_sub_cancel] at htrap
  obtain rfl | rfl := fetch_error hf
  · exact .inl ⟨rfl, _, step_of_deliver_fatal hc hh hA rfl, State.deliver_halted _ _, htrap⟩
  · exact .inr ⟨rfl, _, step_of_deliver_nonfatal hc hh hA hrun rfl, (State.deliver_halted _ _).trans hrun, htrap⟩

/-- Settles O7: the word is fetched and decoded, so phase A is the instruction and phase B is what follows it. -/
theorem stepRunsDecodedInstruction : Obligations.StepRunsDecodedInstruction := by
  unfold Obligations.StepRunsDecodedInstruction
  rintro s s0 pa w i hc hh rfl ht hw hd hr
  refine ⟨consoleSlot_nil, ?_⟩
  have hfetch := fetch_of_wordAt (consoleSlot_cfg s ▸ hc) ht hw
  have hA : phaseA (consoleSlot s) = exec i ((consoleSlot s).setPc ((consoleSlot s).pc + 4)) :=
    (phaseA_of_fetches ⟨w, hfetch, hd⟩).trans (if_pos hr)
  rw [step_of_running hc hh, runStep, hA]
  cases exec i ((consoleSlot s).setPc ((consoleSlot s).pc + 4)) <;> rfl

/-! ## What halts the machine: the instructions -/

/-- Where an answer on `s` is a next state, it delivers an exception or leaves `halted` as it is. -/
def DeliversOrKeepsHalted (s : State) (a : Result) : Prop :=
  ∀ t, a = .next t → (∃ e, t = s.deliver e) ∨ t.halted = s.halted

section Templates

variable {s : State} {n : Width} {rd rs1 rs2 : RegIdx}

theorem deliversOrKeepsHalted_raise (e : Exc) : DeliversOrKeepsHalted s (raise e s) :=
  fun _ h => .inl ⟨e, raise_eq h⟩

theorem deliversOrKeepsHalted_next {t : State} (h : t.halted = s.halted) : DeliversOrKeepsHalted s (.next t) :=
  fun _ ht => .inr (next_inj ht ▸ h)

theorem writeResult_deliversOrKeepsHalted (v : Word) : DeliversOrKeepsHalted s (writeResult rd v s) :=
  deliversOrKeepsHalted_next (s.setReg_halted rd v)

theorem jumpAndLink_deliversOrKeepsHalted (a : Word) : DeliversOrKeepsHalted s (jumpAndLink rd a s) := by
  intro t h
  obtain ⟨-, rfl⟩ | ⟨-, rfl⟩ := jumpAndLink_cases h
  · exact .inr (by simp)
  · exact .inl ⟨_, rfl⟩

theorem branchIf_deliversOrKeepsHalted (c : Bool) (off : BitVec 13) : DeliversOrKeepsHalted s (branchIf c off s) := by
  intro t h
  obtain ⟨-, rfl⟩ | ⟨-, -, rfl⟩ | ⟨-, -, rfl⟩ := branchIf_cases h
  · exact .inr rfl
  · exact .inr rfl
  · exact .inl ⟨_, rfl⟩

theorem busLoad_halted {s' : State} {pa v : Word} {k : AccessKind} (h : busLoad s pa n k = .ok (v, s')) :
    s'.halted = s.halted := by
  obtain rfl | ⟨-, -, rfl⟩ := busLoad_ok h <;> rfl

theorem busStore_halted {t : State} {pa v : Word} {k : AccessKind} (h : busStore s pa n v k = .ok t) :
    t.halted = s.halted := by
  obtain ⟨-, -, rfl⟩ | ⟨_, rfl⟩ | ⟨_, rfl⟩ | ⟨_, rfl⟩ | ⟨_, _, rfl⟩ | ⟨_, rfl⟩ := busStore_ok h <;> rfl

theorem loadInto_deliversOrKeepsHalted (extend : Word → Word) (imm : BitVec 12) :
    DeliversOrKeepsHalted s (loadInto n extend rd rs1 imm s) := by
  intro t h
  obtain ⟨_, _, _, -, hb, rfl⟩ | ⟨e, -, rfl⟩ := loadInto_cases h
  · exact .inr (by rw [State.setReg_halted, busLoad_halted hb])
  · exact .inl ⟨e, rfl⟩

theorem storeFrom_deliversOrKeepsHalted (imm : BitVec 12) :
    DeliversOrKeepsHalted s (storeFrom n rs1 rs2 imm s) := by
  intro t h
  obtain ⟨_, -, hb⟩ | ⟨e, -, rfl⟩ := storeFrom_cases h
  · exact .inr (busStore_halted hb)
  · exact .inl ⟨e, rfl⟩

theorem loadReserved_deliversOrKeepsHalted (hn : n ≠ .byte) : DeliversOrKeepsHalted s (loadReserved n rd rs1 s) := by
  intro t h
  obtain ⟨_, _, -, -, -, rfl⟩ | ⟨e, rfl⟩ := loadReserved_cases hn h
  · exact .inr (by simp)
  · exact .inl ⟨e, rfl⟩

theorem storeConditional_deliversOrKeepsHalted : DeliversOrKeepsHalted s (storeConditional n rd rs1 rs2 s) := by
  intro t h
  obtain ⟨_, _, -, -, hb, rfl⟩ | ⟨_, -, -, rfl⟩ | ⟨e, rfl⟩ := storeConditional_cases h
  · exact .inr (by rw [State.setReg_halted, State.setResv_halted, busStore_halted hb])
  · exact .inr (by simp)
  · exact .inl ⟨e, rfl⟩

theorem readModifyWrite_deliversOrKeepsHalted (hn : n ≠ .byte) (op : Word → Word → Word) :
    DeliversOrKeepsHalted s (readModifyWrite n op rd rs1 rs2 s) := by
  intro t h
  obtain ⟨_, _, _, -, -, hb, rfl⟩ | ⟨e, rfl⟩ := readModifyWrite_cases hn h
  · exact .inr (by rw [State.setReg_halted, busStore_halted hb])
  · exact .inl ⟨e, rfl⟩

theorem readModifyCsr_deliversOrKeepsHalted (a : CsrNum) (new : Word → Word) :
    DeliversOrKeepsHalted s (readModifyCsr rd a new s) :=
  deliversOrKeepsHalted_next (by rw [State.setReg_halted, State.csrWrite_halted])

theorem execMret_deliversOrKeepsHalted : DeliversOrKeepsHalted s (execMret s) := by
  intro t h
  obtain ⟨m, -, rfl⟩ := execMret_cases h
  exact .inr (s.returnM_halted m)

end Templates

/-- An instruction halts the machine only by delivering an exception. -/
theorem exec_deliversOrKeepsHalted (i : Instr) (s : State) : DeliversOrKeepsHalted s (exec i s) := by
  cases i
  case jal | jalr => exact jumpAndLink_deliversOrKeepsHalted _
  case beq | bne | blt | bge | bltu | bgeu => exact branchIf_deliversOrKeepsHalted _ _
  case lb | lh | lw | ld | lbu | lhu | lwu => exact loadInto_deliversOrKeepsHalted _ _
  case sb | sh | sw | sd => exact storeFrom_deliversOrKeepsHalted _
  case fence | fenceI | wfi | sfenceVma => exact deliversOrKeepsHalted_next rfl
  case ecall | ebreak => exact deliversOrKeepsHalted_raise _
  case sret => exact deliversOrKeepsHalted_next s.returnS_halted
  case mret => exact execMret_deliversOrKeepsHalted
  case csrrw | csrrs | csrrc | csrrwi | csrrsi | csrrci =>
    simp only [exec, execCsrrw, execCsrrs, execCsrrc, execCsrrwi, execCsrrsi, execCsrrci]
    exact readModifyCsr_deliversOrKeepsHalted _ _
  case lrW | lrD => exact loadReserved_deliversOrKeepsHalted (by decide)
  case scW | scD => exact storeConditional_deliversOrKeepsHalted
  case amoswapW | amoaddW | amoxorW | amoandW | amoorW | amominW | amomaxW | amominuW | amomaxuW
      | amoswapD | amoaddD | amoxorD | amoandD | amoorD | amominD | amomaxD | amominuD | amomaxuD =>
    exact readModifyWrite_deliversOrKeepsHalted (by decide) _
  -- the other forms write one register
  all_goals exact writeResult_deliversOrKeepsHalted _

/-- Phase A halts the machine only by delivering an exception. -/
theorem phaseA_deliversOrKeepsHalted (s : State) : DeliversOrKeepsHalted s.advance (phaseA s) := by
  obtain ⟨e, he⟩ | ⟨i, hi⟩ := phaseA_raises_or_fetches s
  · rw [he]
    exact deliversOrKeepsHalted_raise e
  · rw [phaseA_of_fetches hi]
    split
    · exact exec_deliversOrKeepsHalted i s.advance
    · exact fun _ h => by cases h

/-! ## What halts the machine: the interrupt check does not -/

theorem copyByte_halted {toDisk : Bool} {buf : Word} {off : Nat} {s t : State}
    (h : copyByte toDisk buf off s = .ok t) : t.halted = s.halted := by
  obtain ⟨-, v, s', hv, rfl⟩ | ⟨-, hs⟩ := copyByte_ok h
  · rw [State.setDisk_halted, busLoad_halted hv]
  · exact busStore_halted hs

theorem copyBytes_halted {toDisk : Bool} {buf : Word} {off len : Nat} {s t : State}
    (h : copyBytes toDisk buf off len s = .ok t) : t.halted = s.halted := by
  induction len generalizing buf off s with
  | zero => cases h; rfl
  | succ n ih =>
    unfold copyBytes at h
    split at h
    · cases h
    · next hb => rw [ih h, copyByte_halted hb]

theorem transfer_halted {r : DiskRequest} {s t : State} (h : transfer r s = .ok t) : t.halted = s.halted := by
  unfold transfer at h
  split at h
  · cases h
  · exact copyBytes_halted h

theorem diskAccess_halted {s t : State} (h : diskAccess s = .ok t) : t.halted = s.halted := by
  unfold diskAccess at h
  split at h
  · cases h
  · next hr =>
    obtain rfl := readRequest_ok hr
    split at h
    · cases h
    · next s2 ht =>
      have hstored := busStore_halted (dmaStore_ok h)
      rw [hstored, State.setVirtio_halted, transfer_halted ht]

@[simp] theorem State.announce_halted (s : State) (irq : BitVec 32) : (s.announce irq).halted = s.halted := by
  unfold State.announce
  split <;> rfl

theorem pollDevices_halted {s t : State} (h : pollDevices s = .ok t) : t.halted = s.halted := by
  unfold pollDevices at h
  split at h
  · cases h; simp
  · split at h
    · split at h
      · cases h
      · next hd => cases h; rw [State.announce_halted, diskAccess_halted hd, State.setVirtio_halted]
    · cases h; rfl

@[simp] theorem selectAndDeliver_halted (s : State) : (selectAndDeliver s).halted = s.halted := by
  unfold selectAndDeliver
  split
  · exact State.takeTrap_halted _ _
  · rfl

/-- No interrupt is fatal (60_exceptions.md R455). -/
theorem interruptCheck_halted {s t : State} (h : interruptCheck s = .next t) : t.halted = s.halted := by
  unfold interruptCheck at h
  split at h
  · split at h
    · cases h
    · next hp => rw [next_inj h, selectAndDeliver_halted, pollDevices_halted hp]
  · rw [next_inj h]

/-- A machine that phase B answers halted was halted before it, and nothing has changed. -/
theorem phaseB_halted {s t : State} (h : phaseB s = .next t) (ht : t.halted = true) : t = s := by
  cases hs : s.halted with
  | true =>
    rw [phaseB_of_halted hs] at h
    exact next_inj h
  | false =>
    rw [phaseB_of_running hs] at h
    have hkept := interruptCheck_halted h
    rw [consoleSlot_halted, hs, ht] at hkept
    cases hkept

/-- A step that answers a next state ran both phases on a running machine. -/
theorem step_next {s t : State} (h : step s = .next t) :
    s.halted = false ∧ ∃ s1, phaseA (consoleSlot s) = .next s1 ∧ phaseB s1 = .next t := by
  cases hc : s.cfg.admissible with
  | false => rw [step_of_inadmissible hc] at h; cases h
  | true =>
    cases hh : s.halted with
    | true => rw [step_of_halted hc hh] at h; cases h
    | false =>
      rw [step_of_running hc hh] at h
      obtain ⟨s1, hA⟩ | ⟨-, -, hA⟩ | ⟨-, hA⟩ := phaseA_cases (consoleSlot s)
      · exact ⟨rfl, s1, hA, runStep_of_next hA ▸ h⟩
      · rw [runStep_of_fault hA] at h; cases h
      · rw [runStep_of_fault hA] at h; cases h

/-- A step that answers a halted state has delivered a fatal exception. -/
theorem step_halted {s t : State} (h : step s = .next t) (ht : t.halted = true) :
    ∃ (s1 : State) (e : Exc), e.fatal = true ∧ t = s1.deliver e := by
  obtain ⟨hh, s1, hA, hB⟩ := step_next h
  obtain rfl := phaseB_halted hB ht
  have hrun : (consoleSlot s).advance.halted = false := (consoleSlot_halted s).trans hh
  obtain ⟨e, rfl⟩ | hkept := phaseA_deliversOrKeepsHalted (consoleSlot s) _ hA
  · rw [State.deliver_halted, hrun, Bool.or_false] at ht
    exact ⟨_, e, ht, rfl⟩
  · exact absurd ((ht.symm.trans hkept).trans hrun) (by decide)

/-- Settles O12: the machine halts by delivering a fatal exception, and the mode entered holds its cause. -/
theorem haltsOnlyOnFatalCause : Obligations.HaltsOnlyOnFatalCause := by
  unfold Obligations.HaltsOnlyOnFatalCause
  intro s t h ht
  obtain ⟨s1, e, hfatal, rfl⟩ := step_halted h ht
  exact ⟨e.code, e.fatal_iff_code_mem.1 hfatal, cause_of_trapTaken (trapTaken_deliver s1 e)⟩

end Sys2Proof.Machine
end

section
/-! Upper immediates, jumps and branches (41_control.md R230 to R242): what the two control templates do, by the alignment
of the target. -/

namespace Sys2Proof.Machine

open Sys2Proof.Safety

/-! ## Frames of a write to the pc -/

theorem onlyPc_setPc (s : State) (v : Word) : OnlyPc s (s.setPc v) where
  regs := SameRegs.rfl' s
  system := { SameSystem.rfl' s with }
  resv := rfl
  memory := SameMemory.rfl' s
  devices := { SameDevices.rfl' s with }

/-- A jump's two writes change nothing else. -/
theorem onlyRegAndPc_setReg_setPc (s : State) (rd : RegIdx) (a v : Word) :
    OnlyRegAndPc rd s ((s.setPc a).setReg rd v) where
  regs := sameRegsBut_setReg (s.setPc a) rd v
  system := { sameSystem_setReg (s.setPc a) rd v with }
  resv := State.setReg_resv ..
  memory := sameMemory_setReg (s.setPc a) rd v
  devices := { sameDevices_setReg (s.setPc a) rd v with }

/-! ## Upper immediates -/

/-- The immediate over twelve zeros, as a number (30_encoding.md R166). -/
theorem toInt_upperImmediate (imm : BitVec 20) : (imm ++ 0#12).toInt = imm.toInt * 4096 := by
  rw [BitVec.toInt_append]
  simp [Int.mul_comm]

/-! ## The two templates -/

section

variable {i : Instr} {s : State}

/-- An instruction that raises an exception takes the trap with its code. -/
theorem traps_of_exec {e : Exc} (h : exec i s = raise e s) : Traps i s e.code := by
  refine ⟨s.deliver e, h, trapTaken_deliver s e, ?_⟩
  simp only [State.deliver_halted, ← e.fatal_iff_code_mem, Bool.decide_eq_true]

theorem jumpAndLink_of_aligned {a : Word} (ha : a.toNat % 4 = 0) (rd : RegIdx) (s : State) :
    jumpAndLink rd a s = .next ((s.setPc a).setReg rd s.pc) :=
  if_pos ((targetAligned_iff a).2 ha)

theorem jumpAndLink_of_misaligned {a : Word} (ha : a.toNat % 4 ≠ 0) (rd : RegIdx) (s : State) :
    jumpAndLink rd a s = raise .instructionAddressMisaligned s :=
  if_neg (mt (targetAligned_iff a).1 ha)

/-- A jump goes to an aligned target and links, and traps at any other (R231). -/
theorem jumps_of_exec {rd : RegIdx} {a : Word} (h : exec i s = jumpAndLink rd a s) :
    (a.toNat % 4 = 0 → ∃ t, exec i s = .next t ∧ t.pc = a ∧ t.reg rd = written rd s.pc ∧ t.isWritten rd = true ∧
      OnlyRegAndPc rd s t) ∧
    (a.toNat % 4 ≠ 0 → Traps i s 0) := by
  refine ⟨fun ha => ⟨_, h.trans (jumpAndLink_of_aligned ha rd s), ?_⟩,
    fun ha => traps_of_exec (h.trans (jumpAndLink_of_misaligned ha rd s))⟩
  exact ⟨State.setReg_pc .., reg_setReg_self .., isWritten_setReg_self .., onlyRegAndPc_setReg_setPc ..⟩

theorem branchIf_notTaken (off : BitVec 13) (s : State) : branchIf false off s = .next s := rfl

theorem branchIf_of_aligned {off : BitVec 13} (ha : (s.ipc + off.signExtend 64).toNat % 4 = 0) :
    branchIf true off s = .next (s.setPc (s.ipc + off.signExtend 64)) :=
  if_pos ((targetAligned_iff _).2 ha)

theorem branchIf_of_misaligned {off : BitVec 13} (ha : (s.ipc + off.signExtend 64).toNat % 4 ≠ 0) :
    branchIf true off s = raise .instructionAddressMisaligned s :=
  if_neg (mt (targetAligned_iff _).1 ha)

/-- An instruction over the branch template is a branch with the condition its flag decides (R236). -/
theorem branchMeans_of_exec {b : Bool} {c : Prop} {off : BitVec 13} (h : exec i s = branchIf b off s)
    (hb : b = true ↔ c) : BranchMeans i c off s := by
  refine ⟨fun hc => ?_, fun target htarget hc => ?_⟩
  · obtain rfl : b = false := Bool.eq_false_iff.2 (mt hb.1 hc)
    exact h.trans (branchIf_notTaken off s)
  · obtain rfl : b = true := hb.2 hc
    obtain rfl := (relativeTarget_iff s off target).1 htarget
    exact ⟨fun ha => ⟨_, h.trans (branchIf_of_aligned ha), rfl, onlyPc_setPc s _⟩,
      fun ha => traps_of_exec (h.trans (branchIf_of_misaligned ha))⟩

end

/-! ## The flags of BGE and BGEU -/

theorem not_slt_iff_toInt_ge {a b : Word} : (!a.slt b) = true ↔ a.toInt ≥ b.toInt :=
  Bool.not_iff_not.trans ((not_congr BitVec.slt_iff_toInt_lt).trans Int.not_lt)

theorem not_ult_iff_toNat_ge {a b : Word} : (!a.ult b) = true ↔ a.toNat ≥ b.toNat :=
  Bool.not_iff_not.trans ((not_congr BitVec.ult_iff_toNat_lt).trans Nat.not_lt)

/-! ## The statements -/

/-- Settles O37: each of the two is one register write, of the immediate or of the immediate on top of the instruction's
own address. -/
theorem upperImmediates : Obligations.UpperImmediates := by
  unfold Obligations.UpperImmediates
  intro s rd imm
  rw [← toInt_upperImmediate]
  exact ⟨computes_of_exec rfl (BitVec.toInt_signExtend_of_le (by decide)), computes_of_exec rfl (toNat_ipc_add s _)⟩

/-- Settles O38: both jumps are the link template at their target, and JALR's clears bit 0 of its sum. -/
theorem jumps : Obligations.Jumps := by
  unfold Obligations.Jumps
  intro s rd rs1 off imm target va
  refine ⟨fun htarget => ?_, fun hva htarget => ?_⟩
  · obtain rfl := (relativeTarget_iff s off target).1 htarget
    exact jumps_of_exec rfl
  · obtain rfl := (effectiveAddress_iff s rs1 imm va).1 hva
    obtain rfl := BitVec.eq_of_toNat_eq (htarget.trans (toNat_clearBit0 (s.ea rs1 imm)).symm)
    exact jumps_of_exec rfl

/-- Settles O39: each branch is the branch template with the flag of its comparison. -/
theorem branches : Obligations.Branches := by
  unfold Obligations.Branches
  intro s rs1 rs2 off
  refine ⟨?beq, ?bne, ?blt, ?bge, ?bltu, ?bgeu⟩
  case beq => exact branchMeans_of_exec rfl beq_iff_eq
  case bne => exact branchMeans_of_exec rfl bne_iff_ne
  case blt => exact branchMeans_of_exec rfl BitVec.slt_iff_toInt_lt
  case bge => exact branchMeans_of_exec rfl not_slt_iff_toInt_ge
  case bltu => exact branchMeans_of_exec rfl BitVec.ult_iff_toNat_lt
  case bgeu => exact branchMeans_of_exec rfl not_ult_iff_toNat_ge

end Sys2Proof.Machine
end

section
/-! Loads and stores (42_loads_stores.md R260 to R273): each form is one of the two templates, and a template's answer is
fixed by the translation of its address and then by the bus. -/

namespace Sys2Proof.Machine

open Sys2Proof.Safety

/-! ## The templates, by what translation and the bus answer -/

section

variable {n : Width} {rd rs1 rs2 : RegIdx} {imm : BitVec 12} {s : State}

theorem loadInto_of_untranslated {e : Exc} (ht : translate s (s.ea rs1 imm) .load = .error e) (extend : Word → Word) :
    loadInto n extend rd rs1 imm s = raise e s := by
  rw [loadInto, ht]

theorem storeFrom_of_untranslated {e : Exc} (ht : translate s (s.ea rs1 imm) .store = .error e) :
    storeFrom n rs1 rs2 imm s = raise e s := by
  rw [storeFrom, ht]

variable {pa : Word}

theorem loadInto_of_refused {e : Exc} (ht : translate s (s.ea rs1 imm) .load = .ok pa)
    (hb : busLoad s pa n .load = .error e) (extend : Word → Word) :
    loadInto n extend rd rs1 imm s = raise .loadAccessFault s := by
  obtain rfl : e = .loadAccessFault := busLoad_error hb
  simp only [loadInto, ht, hb]

theorem loadInto_of_loaded {x : Word} {s' : State} (ht : translate s (s.ea rs1 imm) .load = .ok pa)
    (hb : busLoad s pa n .load = .ok (x, s')) (extend : Word → Word) :
    loadInto n extend rd rs1 imm s = .next (s'.setReg rd (extend x)) := by
  simp only [loadInto, ht, hb]

theorem storeFrom_of_refused {e : Exc} (ht : translate s (s.ea rs1 imm) .store = .ok pa)
    (hb : busStore s pa n (s.reg rs2) .store = .error e) :
    storeFrom n rs1 rs2 imm s = raise .storeAmoAccessFault s := by
  obtain rfl : e = .storeAmoAccessFault := busStore_error hb
  simp only [storeFrom, ht, hb]

theorem storeFrom_of_stored {t : State} (ht : translate s (s.ea rs1 imm) .store = .ok pa)
    (hb : busStore s pa n (s.reg rs2) .store = .ok t) : storeFrom n rs1 rs2 imm s = .next t := by
  simp only [storeFrom, ht, hb]

end

/-! ## The forms -/

/-- The extension of a load form, by the flag of `loadForms`. -/
def extendFrom (isSigned : Bool) (n : Width) : Word → Word :=
  if isSigned then signExtendFrom n else zeroExtendFrom n

/-- Each load is the load template at its width and with its extension; LD's two extensions are the same (R264). -/
theorem exec_loadForms (s : State) (rd rs1 : RegIdx) (imm : BitVec 12) :
    ∀ f ∈ loadForms rd rs1 imm, exec f.1 s = loadInto f.2.1 (extendFrom f.2.2 f.2.1) rd rs1 imm s := by
  intro f hf
  fin_cases hf <;> rfl

/-- Each store is the store template at its width. -/
theorem exec_storeForms (s : State) (rs1 rs2 : RegIdx) (imm : BitVec 12) :
    ∀ f ∈ storeForms rs1 rs2 imm, exec f.1 s = storeFrom f.2 rs1 rs2 imm s := by
  intro f hf
  fin_cases hf <;> rfl

/-- A value that fits the width is extended as the form says. -/
theorem extended_extendFrom (isSigned : Bool) {n : Width} {x : Word} (hx : x.toNat < 2 ^ (8 * n.bytes)) :
    Extended n isSigned x.toNat (extendFrom isSigned n x) := by
  cases isSigned with
  | true => exact toInt_signExtendFrom n x
  | false => exact toNat_zeroExtendFrom n x hx

/-! ## The statements -/

/-- Settles O41: each load is the load template, which raises what translation or the bus raises and else writes the
extended value over the state the bus leaves. -/
theorem loadsFromBus : Obligations.LoadsFromBus := by
  unfold Obligations.LoadsFromBus
  intro s rd rs1 imm va hva f hf
  obtain rfl := (effectiveAddress_iff s rs1 imm va).1 hva
  have hexec := exec_loadForms s rd rs1 imm f hf
  refine ⟨fun e ht => traps_of_exec (hexec.trans (loadInto_of_untranslated ht _)), fun pa ht =>
    ⟨fun e hb => traps_of_exec (hexec.trans (loadInto_of_refused ht hb _)), fun x s' hb => ?_⟩⟩
  exact ⟨_, _, hexec.trans (loadInto_of_loaded ht hb _), extended_extendFrom f.2.2 (busLoad_lt hb),
    reg_setReg_self s' rd _, onlyReg_setReg s' rd _⟩

/-- Settles O43: each store is the store template, which raises what translation or the bus raises and else is the bus
store. -/
theorem storesToBus : Obligations.StoresToBus := by
  unfold Obligations.StoresToBus
  intro s rs1 rs2 imm va hva f hf
  obtain rfl := (effectiveAddress_iff s rs1 imm va).1 hva
  have hexec := exec_storeForms s rs1 rs2 imm f hf
  exact ⟨fun e ht => traps_of_exec (hexec.trans (storeFrom_of_untranslated ht)), fun pa ht =>
    ⟨fun e hb => traps_of_exec (hexec.trans (storeFrom_of_refused ht hb)),
      fun t hb => hexec.trans (storeFrom_of_stored ht hb)⟩⟩

/-- Settles O40: inside DRAM the bus gives the little-endian number of the bytes and leaves the state as it is, so the
load is one register write. -/
theorem loadsFromDram : Obligations.LoadsFromDram := by
  unfold Obligations.LoadsFromDram
  rintro s rd rs1 imm va pa hc hva ht f hf ⟨hbase, hend⟩
  obtain rfl := (effectiveAddress_iff s rs1 imm va).1 hva
  obtain ⟨⟨x, hb, hx⟩, -⟩ := (dramAccess s pa f.2.1 0 .load hc hbase).1 hend
  rw [← hx]
  exact computes_of_exec ((exec_loadForms s rd rs1 imm f hf).trans (loadInto_of_loaded ht hb _))
    (extended_extendFrom f.2.2 (busLoad_lt hb))

/-- Settles O42: inside DRAM the bus store puts the low bytes at the translated address and changes nothing else, and the
store answers what it leaves. -/
theorem storesToDram : Obligations.StoresToDram := by
  unfold Obligations.StoresToDram
  rintro s rs1 rs2 imm va pa hc hva ht f hf ⟨hbase, hend⟩
  obtain ⟨-, t, hb, hframe⟩ := (dramAccess s pa f.2 (s.reg rs2) .store hc hbase).1 hend
  obtain ⟨-, hbus⟩ := storesToBus s rs1 rs2 imm va hva f hf
  exact ⟨t, (hbus pa ht).2 t hb, hframe⟩

end Sys2Proof.Machine
end

section
/-! Integer operations (43_integer_ops.md R290 to R309): each is one register write, so each statement comes down to the
number, or the bits, of the value written. -/

namespace Sys2Proof.Machine

open Sys2Proof.Safety

/-! ## The immediate and the shift amount -/

theorem toInt_imm64 (imm : BitVec 12) : (imm64 imm).toInt = imm.toInt :=
  BitVec.toInt_signExtend_of_le (by decide)

theorem toNat_imm64 (imm : BitVec 12) : ((imm64 imm).toNat : Int) = imm.toInt % 2 ^ 64 :=
  toNat_ofInt64 imm.toInt

/-- Above bit 11 the bits of an extended immediate are its sign. -/
theorem getLsbD_imm64 (imm : BitVec 12) {j : Nat} (hj : j < 64) :
    (imm64 imm).getLsbD j = imm.getLsbD (min j 11) := by
  rw [imm64, BitVec.getLsbD_signExtend, decide_eq_true hj, Bool.true_and]
  by_cases h : j < 12
  · rw [if_pos h, Nat.min_eq_left (by omega)]
  · rw [if_neg h, Nat.min_eq_right (by omega), BitVec.msb_eq_getLsbD_last]

/-- The low 6 bits as a number (R168). -/
theorem shiftAmount6_eq (v : Word) : shiftAmount6 v = v.toNat % 64 :=
  BitVec.extractLsb'_toNat 0 6 v

/-! ## The difference and the compares -/

/-- The difference wraps to the integer difference modulo 2^64 (R301). -/
theorem toNat_sub_emod (a b : Word) : ((a - b).toNat : Int) = ((a.toNat : Int) - b.toNat) % 2 ^ 64 := by
  bv_omega

/-- A compare writes 1 exactly where its condition holds. -/
theorem toNat_boolWord {c : Bool} {p : Prop} [Decidable p] (h : c = true ↔ p) :
    (boolWord c).toNat = if p then 1 else 0 := by
  by_cases hp : p
  · rw [if_pos hp, h.2 hp]; rfl
  · rw [if_neg hp, Bool.eq_false_iff.2 (mt h.1 hp)]; rfl

theorem slt_imm64_iff (a : Word) (imm : BitVec 12) : a.slt (imm64 imm) = true ↔ a.toInt < imm.toInt := by
  rw [BitVec.slt_iff_toInt_lt, toInt_imm64]

/-- SLTIU compares with the extended immediate as an unsigned number (R293). -/
theorem ult_imm64_iff (a : Word) (imm : BitVec 12) :
    a.ult (imm64 imm) = true ↔ (a.toNat : Int) < imm.toInt % 2 ^ 64 := by
  rw [BitVec.ult_iff_toNat_lt, ← toNat_imm64, Int.ofNat_lt]

/-! ## The shifts as arithmetic -/

theorem toNat_shiftLeft_eq_mul {w : Nat} (a : BitVec w) (n : Nat) : (a <<< n).toNat = a.toNat * 2 ^ n % 2 ^ w := by
  rw [BitVec.toNat_shiftLeft, Nat.shiftLeft_eq]

theorem toNat_ushiftRight_eq_div {w : Nat} (a : BitVec w) (n : Nat) : (a >>> n).toNat = a.toNat / 2 ^ n := by
  rw [BitVec.toNat_ushiftRight, Nat.shiftRight_eq_div_pow]

/-- The arithmetic shift divides the signed number, rounding down (R299). -/
theorem toInt_sshiftRight_eq_div {w : Nat} (a : BitVec w) (n : Nat) : (a.sshiftRight n).toInt = a.toInt / 2 ^ n := by
  rw [BitVec.toInt_sshiftRight, Int.shiftRight_eq_div_pow, Nat.cast_pow, Nat.cast_ofNat]

/-! ## The statements -/

/-- Settles O29: each of the seven is one register write, of a wrapped sum or difference or of a compare's flag. -/
theorem addSubtractAndCompare : Obligations.AddSubtractAndCompare := by
  unfold Obligations.AddSubtractAndCompare
  intro s rd rs1 rs2 imm a b
  refine ⟨?addi, ?add, ?sub, ?slti, ?sltiu, ?slt, ?sltu⟩
  case addi => exact computes_of_exec rfl (toNat_add_signExtend a imm)
  case add => exact computes_of_exec rfl (BitVec.toNat_add a b)
  case sub => exact computes_of_exec rfl (toNat_sub_emod a b)
  case slti => exact computes_of_exec rfl (toNat_boolWord (slt_imm64_iff a imm))
  case sltiu => exact computes_of_exec rfl (toNat_boolWord (ult_imm64_iff a imm))
  case slt => exact computes_of_exec rfl (toNat_boolWord BitVec.slt_iff_toInt_lt)
  case sltu => exact computes_of_exec rfl (toNat_boolWord BitVec.ult_iff_toNat_lt)

/-- Settles O30: each of the six is one register write, whose bits are the operation on the operands' bits. -/
theorem logicInstructions : Obligations.LogicInstructions := by
  unfold Obligations.LogicInstructions
  intro s rd rs1 rs2 imm a b c
  have himm : ∀ j, j < 64 → (imm64 imm).getLsbD j = c j := fun _ => getLsbD_imm64 imm
  refine ⟨?xori, ?ori, ?andi, ?xor, ?or, ?and⟩
  case xori => exact computes_of_exec rfl fun j hj => himm j hj ▸ BitVec.getLsbD_xor
  case ori => exact computes_of_exec rfl fun j hj => himm j hj ▸ BitVec.getLsbD_or
  case andi => exact computes_of_exec rfl fun j hj => himm j hj ▸ BitVec.getLsbD_and
  case xor => exact computes_of_exec rfl fun _ _ => BitVec.getLsbD_xor
  case or => exact computes_of_exec rfl fun _ _ => BitVec.getLsbD_or
  case and => exact computes_of_exec rfl fun _ _ => BitVec.getLsbD_and

/-- Settles O31: each of the six is one register write, of the shift by the field or by the low 6 bits of `x[rs2]`. -/
theorem shiftInstructions : Obligations.ShiftInstructions := by
  unfold Obligations.ShiftInstructions
  intro s rd rs1 rs2 shamt a k
  have hk : shiftAmount6 (s.reg rs2) = k := shiftAmount6_eq _
  refine ⟨?slli, ?srli, ?srai, ?sll, ?srl, ?sra⟩
  case slli => exact computes_of_exec rfl (toNat_shiftLeft_eq_mul a _)
  case srli => exact computes_of_exec rfl (toNat_ushiftRight_eq_div a _)
  case srai => exact computes_of_exec rfl (toInt_sshiftRight_eq_div a _)
  case sll => exact computes_of_exec rfl (hk ▸ toNat_shiftLeft_eq_mul a _)
  case srl => exact computes_of_exec rfl (hk ▸ toNat_ushiftRight_eq_div a _)
  case sra => exact computes_of_exec rfl (hk ▸ toInt_sshiftRight_eq_div a _)

end Sys2Proof.Machine
end

section
/-! The W operations (44_word_ops.md R330 to R339): each writes one 32-bit result sign-extended, so each statement comes down
to the signed number of that result. -/

namespace Sys2Proof.Machine

open Sys2Proof.Safety

/-! ## The operands -/

/-- The low 32 bits as a number (R330). -/
theorem toNat_low32 (v : Word) : (low32 v).toNat = v.toNat % 2 ^ 32 :=
  BitVec.toNat_setWidth 32 v

/-- The low 5 bits as a number (R168). -/
theorem shiftAmount5_eq (v : Word) : shiftAmount5 v = v.toNat % 32 :=
  BitVec.extractLsb'_toNat 0 5 v

/-! ## The signed number of a 32-bit result -/

/-- A result that wraps a number has that number's signed value. -/
theorem toInt_eq_signed {w : Nat} {r : BitVec w} {x : Int} (h : (r.toNat : Int) = x % (2 ^ w : Nat)) :
    r.toInt = signed w x := by
  rw [BitVec.toInt_eq_toNat_bmod, h]
  exact Int.emod_bmod x (2 ^ w)

theorem toInt_low32_addImmediate (a : Word) (imm : BitVec 12) :
    (low32 (a + imm64 imm)).toInt = signed 32 ((a.toNat % 2 ^ 32 : Nat) + imm.toInt) := by
  refine toInt_eq_signed ?_
  have hsum : ((a + imm64 imm).toNat : Int) = (a.toNat + imm.toInt) % 2 ^ 64 := toNat_add_signExtend a imm
  rw [toNat_low32]
  omega

theorem toInt_low32_add (a b : Word) :
    (low32 (a + b)).toInt = signed 32 (a.toNat % 2 ^ 32 + b.toNat % 2 ^ 32 : Nat) := by
  refine toInt_eq_signed ?_
  rw [toNat_low32, BitVec.toNat_add]
  omega

theorem toInt_low32_sub (a b : Word) :
    (low32 (a - b)).toInt = signed 32 ((a.toNat % 2 ^ 32 : Nat) - (b.toNat % 2 ^ 32 : Nat)) := by
  refine toInt_eq_signed ?_
  have hdiff : ((a - b).toNat : Int) = ((a.toNat : Int) - b.toNat) % 2 ^ 64 := toNat_sub_emod a b
  rw [toNat_low32]
  omega

theorem toInt_low32_shiftLeft (a : Word) (n : Nat) :
    (low32 a <<< n).toInt = signed 32 (a.toNat % 2 ^ 32 * 2 ^ n : Nat) := by
  refine toInt_eq_signed ?_
  rw [toNat_shiftLeft_eq_mul, toNat_low32]
  exact Int.natCast_emod _ _

theorem toInt_low32_ushiftRight (a : Word) (n : Nat) :
    (low32 a >>> n).toInt = signed 32 (a.toNat % 2 ^ 32 / 2 ^ n : Nat) := by
  rw [BitVec.toInt_eq_toNat_bmod, toNat_ushiftRight_eq_div, toNat_low32, signed]

theorem toInt_low32_sshiftRight (a : Word) (n : Nat) :
    ((low32 a).sshiftRight n).toInt = signed 32 (a.toNat % 2 ^ 32 : Nat) / 2 ^ n := by
  rw [toInt_sshiftRight_eq_div, BitVec.toInt_eq_toNat_bmod, toNat_low32, signed]

/-! ## The statement -/

/-- A W form's register holds the signed number of its 32-bit result, and nothing else changes (R330). -/
theorem computes_of_writeWord {i : Instr} {rd : RegIdx} {s : State} {r : BitVec 32} {x : Int}
    (h : exec i s = writeWord rd r s) (hr : r.toInt = x) : Computes i rd s (fun v => v.toInt = x) :=
  computes_of_exec (h.trans (writeWord_eq rd r s)) ((BitVec.toInt_signExtend_of_le (by decide)).trans hr)

/-- Settles O32: each of the nine writes one sign-extended 32-bit result, of the low halves of the operands. -/
theorem wordInstructions : Obligations.WordInstructions := by
  unfold Obligations.WordInstructions
  intro s rd rs1 rs2 imm shamt a b k
  have hk : shiftAmount5 (s.reg rs2) = k := shiftAmount5_eq _
  refine ⟨?addiw, ?slliw, ?srliw, ?sraiw, ?addw, ?subw, ?sllw, ?srlw, ?sraw⟩
  case addiw => exact computes_of_writeWord rfl (toInt_low32_addImmediate _ imm)
  case slliw => exact computes_of_writeWord rfl (toInt_low32_shiftLeft _ _)
  case srliw => exact computes_of_writeWord rfl (toInt_low32_ushiftRight _ _)
  case sraiw => exact computes_of_writeWord rfl (toInt_low32_sshiftRight _ _)
  case addw => exact computes_of_writeWord rfl (toInt_low32_add _ _)
  case subw => exact computes_of_writeWord rfl (toInt_low32_sub _ _)
  case sllw => exact computes_of_writeWord rfl (hk ▸ toInt_low32_shiftLeft _ _)
  case srlw => exact computes_of_writeWord rfl (hk ▸ toInt_low32_ushiftRight _ _)
  case sraw => exact computes_of_writeWord rfl (hk ▸ toInt_low32_sshiftRight _ _)

end Sys2Proof.Machine
end

section
/-! Multiply and divide (45_muldiv.md R350 to R365): each is one register write, of half of an exact product or of a quotient
or remainder, so each statement comes down to the number of that value; the divisions are treated at every width. -/

namespace Sys2Proof.Machine

open Sys2Proof.Safety

/-! ## The halves of a product -/

/-- The upper half divides the 128-bit product by 2^64, rounding down, whether the product is signed or not. -/
theorem highHalf_eq_ofInt (p : Int) : highHalf p = BitVec.ofInt 64 (p / 2 ^ 64) := by
  refine BitVec.eq_of_toNat_eq ?_
  rw [highHalf, BitVec.extractLsb'_toNat, BitVec.toNat_ofInt, BitVec.toNat_ofInt, Nat.shiftRight_eq_div_pow]
  omega

/-- The upper half of a product that fits 127 bits and the sign. -/
theorem toInt_highHalf {p : Int} (hlo : -2 ^ 127 ≤ p) (hhi : p < 2 ^ 127) : (highHalf p).toInt = p / 2 ^ 64 := by
  rw [highHalf_eq_ofInt]
  exact BitVec.toInt_ofInt_eq_self (by decide) (by omega) (by omega)

/-- A signed product is at most 2^126 in magnitude (R353). -/
theorem toInt_highHalf_mul (a b : Word) : (highHalf (a.toInt * b.toInt)).toInt = a.toInt * b.toInt / 2 ^ 64 := by
  have hlo : -2 ^ (64 * 2 - 2) ≤ a.toInt * b.toInt := BitVec.le_toInt_mul_toInt
  have hhi : a.toInt * b.toInt ≤ 2 ^ (64 * 2 - 2) := BitVec.toInt_mul_toInt_le
  exact toInt_highHalf (by omega) (by omega)

/-- A signed by unsigned product lies between -2^63 × 2^64 and 2^63 × 2^64 (R354). -/
theorem toInt_highHalf_mul_toNat (a b : Word) :
    (highHalf (a.toInt * b.toNat)).toInt = a.toInt * b.toNat / 2 ^ 64 := by
  have hlo : -2 ^ 63 ≤ a.toInt := a.le_toInt
  have hhi : a.toInt < 2 ^ 63 := BitVec.toInt_lt
  have hb : (b.toNat : Int) < 2 ^ 64 := by exact_mod_cast b.isLt
  exact toInt_highHalf (by nlinarith) (by nlinarith)

/-- An unsigned product fits 128 bits (R355). -/
theorem toNat_highHalf_mul (a b : Word) :
    (highHalf ((a.toNat : Int) * b.toNat)).toNat = a.toNat * b.toNat / 2 ^ 64 := by
  have hlt : a.toNat * b.toNat < 2 ^ 64 * 2 ^ 64 := Nat.mul_lt_mul'' a.isLt b.isLt
  rw [highHalf_eq_ofInt, BitVec.toNat_ofInt, ← Nat.cast_mul]
  omega

theorem toInt_low32_mul (a b : Word) :
    (low32 a * low32 b).toInt = signed 32 ((a.toNat % 2 ^ 32) * (b.toNat % 2 ^ 32) : Nat) := by
  refine toInt_eq_signed ?_
  rw [BitVec.toNat_mul, toNat_low32, toNat_low32]
  exact Int.natCast_emod _ _

/-! ## The divisions, case by case (R351)

Where the divisor is not 0 and there is no overflow, each is the library's operation on words. -/

section

variable {w : Nat} {a b : BitVec w}

theorem divSigned_zero (a : BitVec w) : divSigned a 0 = BitVec.allOnes w := if_pos rfl

theorem remSigned_zero (a : BitVec w) : remSigned a 0 = a := if_pos rfl

theorem divUnsigned_zero (a : BitVec w) : divUnsigned a 0 = BitVec.allOnes w := if_pos rfl

theorem remUnsigned_zero (a : BitVec w) : remUnsigned a 0 = a := if_pos rfl

theorem divSigned_of_overflow (hb : b ≠ 0) (ho : a = BitVec.intMin w ∧ b = BitVec.allOnes w) :
    divSigned a b = BitVec.intMin w := by
  rw [divSigned, if_neg hb, if_pos ho]

theorem remSigned_of_overflow (hb : b ≠ 0) (ho : a = BitVec.intMin w ∧ b = BitVec.allOnes w) : remSigned a b = 0 := by
  rw [remSigned, if_neg hb, if_pos ho]

theorem toInt_sdiv_of_not_overflow (ho : ¬(a = BitVec.intMin w ∧ b = BitVec.allOnes w)) :
    (a.sdiv b).toInt = a.toInt.tdiv b.toInt :=
  BitVec.toInt_sdiv_of_ne_or_ne a b (BitVec.neg_one_eq_allOnes ▸ not_and_or.1 ho)

theorem divSigned_eq_sdiv (hb : b ≠ 0) (ho : ¬(a = BitVec.intMin w ∧ b = BitVec.allOnes w)) :
    divSigned a b = a.sdiv b := by
  rw [divSigned, if_neg hb, if_neg ho, ← toInt_sdiv_of_not_overflow ho, BitVec.ofInt_toInt]

theorem remSigned_eq_srem (hb : b ≠ 0) (ho : ¬(a = BitVec.intMin w ∧ b = BitVec.allOnes w)) :
    remSigned a b = a.srem b := by
  rw [remSigned, if_neg hb, if_neg ho, ← Int.tmod_def, ← BitVec.toInt_srem, BitVec.ofInt_toInt]

theorem divUnsigned_eq_div (hb : b ≠ 0) : divUnsigned a b = a / b := by
  rw [divUnsigned, if_neg hb, BitVec.udiv_def]

theorem remUnsigned_eq_mod (hb : b ≠ 0) : remUnsigned a b = a % b := by
  rw [remUnsigned, if_neg hb, BitVec.umod_def]

/-! ## The divisions as numbers -/

theorem toInt_eq_zero_iff : b.toInt = 0 ↔ b = 0 := by
  rw [← BitVec.toInt_zero (w := w), BitVec.toInt_inj]
  rfl

theorem toNat_eq_zero_iff : b.toNat = 0 ↔ b = 0 := BitVec.toNat_inj (y := 0#w)

/-- The one overflow, MIN by -1, as numbers. -/
theorem overflow_iff (hw : 0 < w) :
    a = BitVec.intMin w ∧ b = BitVec.allOnes w ↔ a.toInt = -2 ^ (w - 1) ∧ b.toInt = -1 := by
  rw [← BitVec.toInt_inj, ← BitVec.toInt_inj, BitVec.toInt_intMin_of_pos hw, BitVec.toInt_allOnes, if_pos hw]

/-- The corners that the model decides on words are the spec's corners on numbers (R356, R361). -/
theorem toInt_divSigned (hw : 0 < w) (a b : BitVec w) : (divSigned a b).toInt =
    if b.toInt = 0 then -1 else if a.toInt = -2 ^ (w - 1) ∧ b.toInt = -1 then -2 ^ (w - 1)
    else a.toInt.tdiv b.toInt := by
  simp only [toInt_eq_zero_iff, ← overflow_iff hw]
  split_ifs with hb ho
  · rw [hb, divSigned_zero, BitVec.toInt_allOnes, if_pos hw]
  · rw [divSigned_of_overflow hb ho, BitVec.toInt_intMin_of_pos hw]
  · rw [divSigned_eq_sdiv hb ho, toInt_sdiv_of_not_overflow ho]

theorem toInt_remSigned (hw : 0 < w) (a b : BitVec w) : (remSigned a b).toInt =
    if b.toInt = 0 then a.toInt else if a.toInt = -2 ^ (w - 1) ∧ b.toInt = -1 then 0 else a.toInt.tmod b.toInt := by
  simp only [toInt_eq_zero_iff, ← overflow_iff hw]
  split_ifs with hb ho
  · rw [hb, remSigned_zero]
  · rw [remSigned_of_overflow hb ho]
    exact BitVec.toInt_zero
  · rw [remSigned_eq_srem hb ho, BitVec.toInt_srem]

theorem toNat_divUnsigned (a b : BitVec w) :
    (divUnsigned a b).toNat = if b.toNat = 0 then 2 ^ w - 1 else a.toNat / b.toNat := by
  simp only [toNat_eq_zero_iff]
  split_ifs with hb
  · rw [hb, divUnsigned_zero, BitVec.toNat_allOnes]
  · rw [divUnsigned_eq_div hb, BitVec.toNat_udiv]

theorem toNat_remUnsigned (a b : BitVec w) :
    (remUnsigned a b).toNat = if b.toNat = 0 then a.toNat else a.toNat % b.toNat := by
  simp only [toNat_eq_zero_iff]
  split_ifs with hb
  · rw [hb, remUnsigned_zero]
  · rw [remUnsigned_eq_mod hb, BitVec.toNat_umod]

/-! ## The laws (R365) -/

/-- The words wrap the same sum and product as the numbers, so no bound on the quotient is needed. -/
theorem divSigned_mul_add_remSigned (hb : b ≠ 0) (ho : ¬(a = BitVec.intMin w ∧ b = BitVec.allOnes w)) :
    divSigned a b * b + remSigned a b = a := by
  rw [divSigned_eq_sdiv hb ho, remSigned_eq_srem hb ho]
  calc a.sdiv b * b + a.srem b
      = BitVec.ofInt w ((a.sdiv b).toInt * b.toInt + (a.srem b).toInt) := by
        rw [BitVec.ofInt_add, BitVec.ofInt_mul, BitVec.ofInt_toInt, BitVec.ofInt_toInt, BitVec.ofInt_toInt]
    _ = BitVec.ofInt w a.toInt := by
        rw [toInt_sdiv_of_not_overflow ho, BitVec.toInt_srem, Int.tdiv_mul_add_tmod]
    _ = a := BitVec.ofInt_toInt

theorem natAbs_remSigned_lt (hb : b ≠ 0) (ho : ¬(a = BitVec.intMin w ∧ b = BitVec.allOnes w)) :
    (remSigned a b).toInt.natAbs < b.toInt.natAbs := by
  rw [remSigned_eq_srem hb ho, BitVec.toInt_srem, Int.natAbs_tmod]
  exact Nat.mod_lt _ (Int.natAbs_pos.2 (mt toInt_eq_zero_iff.1 hb))

/-- The truncating remainder is 0 where the divisor divides the dividend, and else has the dividend's sign. -/
theorem remSigned_eq_zero_or_sign (hb : b ≠ 0) (ho : ¬(a = BitVec.intMin w ∧ b = BitVec.allOnes w)) :
    remSigned a b = 0 ∨ ((remSigned a b).toInt < 0 ↔ a.toInt < 0) := by
  have hsign := Int.sign_tmod a.toInt b.toInt
  rw [remSigned_eq_srem hb ho, ← toInt_eq_zero_iff, BitVec.toInt_srem]
  split_ifs at hsign with hdvd
  · exact .inl (Int.sign_eq_zero_iff_zero.1 hsign)
  · exact .inr (by rw [← Int.sign_eq_neg_one_iff_neg, hsign, Int.sign_eq_neg_one_iff_neg])

theorem divUnsigned_mul_add_remUnsigned (hb : b ≠ 0) : divUnsigned a b * b + remUnsigned a b = a := by
  rw [divUnsigned_eq_div hb, remUnsigned_eq_mod hb]
  refine BitVec.eq_of_toNat_eq ?_
  rw [BitVec.toNat_add, BitVec.toNat_mul, BitVec.toNat_udiv, BitVec.toNat_umod, Nat.mod_add_mod, Nat.div_add_mod',
    Nat.mod_eq_of_lt a.isLt]

theorem remUnsigned_lt (hb : b ≠ 0) : (remUnsigned a b).toNat < b.toNat := by
  rw [remUnsigned_eq_mod hb, BitVec.toNat_umod]
  exact Nat.mod_lt _ (Nat.pos_of_ne_zero (mt toNat_eq_zero_iff.1 hb))

theorem allOnes_ne_zero (hw : 0 < w) : BitVec.allOnes w ≠ 0 := by
  rw [Ne, ← toInt_eq_zero_iff, BitVec.toInt_allOnes, if_pos hw]
  decide

end

/-! ## The operands of the W forms -/

/-- The low 32 bits as a signed number (R330). -/
theorem toInt_low32 (v : Word) : (low32 v).toInt = signed 32 v.toNat :=
  toInt_eq_signed (by rw [toNat_low32, Int.natCast_emod])

/-! ## The statements -/

/-- Settles O33: each of the five is one register write, of the low half, the upper half or the word of the product. -/
theorem multiplyInstructions : Obligations.MultiplyInstructions := by
  unfold Obligations.MultiplyInstructions
  intro s rd rs1 rs2 a b
  refine ⟨?mul, ?mulh, ?mulhsu, ?mulhu, ?mulw⟩
  case mul => exact computes_of_exec rfl (BitVec.toNat_mul a b)
  case mulh => exact computes_of_exec rfl (toInt_highHalf_mul a b)
  case mulhsu => exact computes_of_exec rfl (toInt_highHalf_mul_toNat a b)
  case mulhu => exact computes_of_exec rfl (toNat_highHalf_mul a b)
  case mulw => exact computes_of_writeWord rfl (toInt_low32_mul a b)

/-- Settles O34: each of the four is one register write, whose number is the division's with its corners. -/
theorem divideInstructions : Obligations.DivideInstructions := by
  unfold Obligations.DivideInstructions
  intro s rd rs1 rs2 a b
  refine ⟨?div, ?divu, ?rem, ?remu⟩
  case div => exact computes_of_exec rfl (toInt_divSigned (by decide) a b)
  case divu => exact computes_of_exec rfl (toNat_divUnsigned a b)
  case rem => exact computes_of_exec rfl (toInt_remSigned (by decide) a b)
  case remu => exact computes_of_exec rfl (toNat_remUnsigned a b)

/-- Settles O35: each of the four writes one sign-extended 32-bit result, of the division of the low halves. -/
theorem divideWordInstructions : Obligations.DivideWordInstructions := by
  unfold Obligations.DivideWordInstructions
  intro s rd rs1 rs2
  simp only [← toInt_low32, ← toNat_low32, ← toNat_divUnsigned, ← toNat_remUnsigned]
  refine ⟨?divw, ?divuw, ?remw, ?remuw⟩
  case divw => exact computes_of_writeWord rfl (toInt_divSigned (by decide) _ _)
  case divuw => exact computes_of_writeWord rfl (BitVec.toInt_eq_toNat_bmod _)
  case remw => exact computes_of_writeWord rfl (toInt_remSigned (by decide) _ _)
  case remuw => exact computes_of_writeWord rfl (BitVec.toInt_eq_toNat_bmod _)

/-- Settles O36: the laws hold at every width but 0, by the division of the numbers that the words stand for. -/
theorem divisionLaws : Obligations.DivisionLaws := by
  unfold Obligations.DivisionLaws
  intro w hw a b
  have hpos : 0 < w := by omega
  refine ⟨fun hb ho => ?signed, fun hb => ?unsigned, ?zero, ?overflow⟩
  case signed =>
    exact ⟨divSigned_mul_add_remSigned hb ho, natAbs_remSigned_lt hb ho, remSigned_eq_zero_or_sign hb ho⟩
  case unsigned => exact ⟨divUnsigned_mul_add_remUnsigned hb, remUnsigned_lt hb⟩
  case zero =>
    rintro rfl
    exact ⟨divSigned_zero a, remSigned_zero a, divUnsigned_zero a, remUnsigned_zero a⟩
  case overflow =>
    rintro rfl rfl
    have hb := allOnes_ne_zero hpos
    exact ⟨divSigned_of_overflow hb ⟨rfl, rfl⟩, remSigned_of_overflow hb ⟨rfl, rfl⟩⟩

end Sys2Proof.Machine
end

section
/-! System instructions (46_system.md R370 to R378): the trap returns by the status word, the four no-ops, and the
traps of ECALL and EBREAK. -/

namespace Sys2Proof.Machine

open Sys2Proof.Safety

/-! ## The trap returns -/

/-- The three writes of a trap return change nothing else. -/
theorem trapFrame_setCsr_setMode_setPc (s : State) (a : CsrNum) (v : Word) (m : Mode) (pc : Word) :
    TrapFrame [a] s (((s.setCsr a v).setMode m).setPc pc) where
  regs := SameRegs.rfl' s
  memory := SameMemory.rfl' s
  devices := { SameDevices.rfl' s with }
  cfg := rfl
  paging := rfl
  ptRoot := rfl
  input := rfl
  csr _ hb := s.csrRaw_setCsr_other (List.ne_of_not_mem_cons hb) v

theorem trapFrame_returnS (s : State) : TrapFrame [Csr.sstatus] s s.returnS :=
  trapFrame_setCsr_setMode_setPc s _ _ _ _

theorem trapFrame_returnM (s : State) (m : Mode) : TrapFrame [Csr.mstatus] s (s.returnM m) :=
  trapFrame_setCsr_setMode_setPc s _ _ _ _

/-- The status bits after SRET, in the order of R376. -/
theorem State.getLsbD_sstatus_returnS (s : State) {j : Nat} (hj : j < 64) :
    (s.returnS.csrRaw Csr.sstatus).getLsbD j =
      if j = 1 then (s.csrRaw Csr.sstatus).getLsbD 5 else if j = 5 then true else if j = 8 then false
      else (s.csrRaw Csr.sstatus).getLsbD j := by
  rw [State.returnS_csrRaw, if_pos rfl, getLsbD_sstatusOnReturn _ _ hj]
  grind

/-- The status bits after MRET, in the order of R377. -/
theorem State.getLsbD_mstatus_returnM (s : State) (m : Mode) {j : Nat} (hj : j < 64) :
    ((s.returnM m).csrRaw Csr.mstatus).getLsbD j =
      if j = 3 then (s.csrRaw Csr.mstatus).getLsbD 7 else if j = 7 then true else if j = 11 ∨ j = 12 then false
      else (s.csrRaw Csr.mstatus).getLsbD j := by
  rw [State.returnM_csrRaw, if_pos rfl, getLsbD_mstatusOnReturn _ _ hj]
  grind

/-- SRET's mode is the one that bit SPP names. -/
theorem sretMode_eq (st : Word) : sretMode st = if bit st 8 = 1 then .supervisor else .user :=
  if_congr (bit_eq_one_iff st 8).symm rfl rfl

/-- The encoding of a mode names that mode (60_exceptions.md R470). -/
theorem Mode.ofBits_bits (m : Mode) : Mode.ofBits m.bits = some m := by cases m <;> rfl

/-- MRET returns to the mode that MPP encodes. -/
theorem execMret_of_mpp {s : State} {m : Mode} (h : mppBits (s.csrRaw Csr.mstatus) = m.bits) :
    execMret s = .next (s.returnM m) := by
  simp only [execMret, h, Mode.ofBits_bits]

/-- MRET stops at the reserved MPP. -/
theorem execMret_of_mppReserved {s : State} (h : s.mppReserved) : execMret s = .fault .mretReservedMode := by
  simp only [execMret, (Mode.ofBits_eq_none_iff _).2 h]

/-! ## The statements -/

/-- Settles O46: SRET always answers its return, and MRET the return to the mode that MPP encodes or, where it encodes
none, the fault; either return is three writes, so nothing else changes. -/
theorem trapReturns : Obligations.TrapReturns := by
  unfold Obligations.TrapReturns
  intro s rs1 rd
  refine ⟨?sret, fun m hmpp => ?mret, fun hmpp => ?reserved⟩
  case sret =>
    exact ⟨s.returnS, rfl, s.returnS_pc, s.returnS_mode.trans (sretMode_eq _),
      fun _ => s.getLsbD_sstatus_returnS, s.returnS_resv, s.returnS_halted, trapFrame_returnS s⟩
  case mret =>
    have hbits : mppBits (s.csrRaw Csr.mstatus) = m.bits :=
      BitVec.eq_of_toNat_eq ((mppBits_toNat _).trans (hmpp.trans (by cases m <;> rfl)))
    exact ⟨s.returnM m, execMret_of_mpp hbits, s.returnM_pc m, s.returnM_mode m,
      fun _ => s.getLsbD_mstatus_returnM m, s.returnM_resv m, s.returnM_halted m, trapFrame_returnM s m⟩
  case reserved => exact execMret_of_mppReserved (s.mppReserved_iff.2 hmpp)

/-- Settles O44: the arm of each of the four is the state itself. -/
theorem noOperations : Obligations.NoOperations := by
  unfold Obligations.NoOperations
  intros
  exact ⟨rfl, rfl, rfl, rfl⟩

/-- An environment call raises the exception of the mode it is made from (R372). -/
theorem traps_ecall (s : State) (rs1 rd : RegIdx) : Traps (.ecall rs1 rd) s (environmentCall s.mode).code :=
  traps_of_exec rfl

/-- Settles O45: both raise one exception, whose code is the mode's for ECALL. -/
theorem environmentCallAndBreakpoint : Obligations.EnvironmentCallAndBreakpoint := by
  unfold Obligations.EnvironmentCallAndBreakpoint
  intro s rs1 rd
  have hecall := traps_ecall s rs1 rd
  refine ⟨fun hmode => ?_, fun hmode => ?_, fun hmode => ?_, traps_of_exec (e := .breakpoint) rfl⟩ <;>
    rwa [hmode] at hecall

end Sys2Proof.Machine
end

section
/-! The CSR instructions (47_csr.md R390 to R398): each is one write and one register write, and the bank keeps its
shape. -/

namespace Sys2Proof.Machine

open Sys2Proof.Safety

/-! ## The shape of the bank -/

theorem csrBankShape_of_stores {s t : State} (hs : CsrBankShape s) (h : t.stores = s.stores) : CsrBankShape t := by
  obtain ⟨-, -, -, -, hcsr, -, -⟩ := State.stores_eq_iff.1 h
  rwa [CsrBankShape, hcsr]

/-- A write of any CSR but `sie` puts nothing at 0x104, and its number is below 4096. -/
theorem csrBankShape_setCsr {s : State} {a : CsrNum} (ha : a ≠ Csr.sie) (v : Word) (hs : CsrBankShape s) :
    CsrBankShape (s.setCsr a v) := by
  have hread (k : Nat) (hk : k ≠ a.toNat) : sparseRead 0 (s.setCsr a v).csr k = sparseRead 0 s.csr k :=
    (sparseRead_sparseWrite 0 s.csr a.toNat v k).trans (if_neg hk)
  have hsie : 0x104 ≠ a.toNat := fun h => ha (BitVec.eq_of_toNat_eq h.symm)
  obtain ⟨hentry, hpast⟩ := hs
  refine ⟨(hread _ hsie).trans hentry, fun k hk => (hread k ?_).trans (hpast k hk)⟩
  have := a.isLt
  omega

theorem keptByUpdates_csrBankShape : KeptByUpdates CsrBankShape :=
  .of_stores csrBankShape_of_stores
    (setMem := fun _ _ _ _ _ hs => hs)
    (setUart := fun _ _ hs => hs)
    (setDisk := fun _ _ _ hs => hs)
    (setCsr := fun _ v ha _ => csrBankShape_setCsr ha v)
    (setSatp := fun v => csrBankShape_setCsr (by decide) v)

/-- Settles O60: a write to `sie` goes to `mie` (R397), so no update puts an entry at 0x104, and a CSR's number has
12 bits. -/
theorem stepKeepsCsrBankShape : Obligations.StepKeepsCsrBankShape := by
  unfold Obligations.StepKeepsCsrBankShape
  exact fun _ _ => keptByUpdates_csrBankShape.step

/-! ## The template -/

/-- Each form is the template with what the form makes of the prior value. -/
theorem exec_csrForms (s : State) (rd rs1 : RegIdx) (uimm : BitVec 5) (a : CsrNum) :
    ∀ f ∈ csrForms rd rs1 uimm a s, exec f.1 s = readModifyCsr rd a f.2 s := by
  intro f hf
  simp only [csrForms, BitVec.ofNat_toNat] at hf
  fin_cases hf <;> rfl

/-- A write to any CSR but `sie` goes to its own entry of the bank, `satp` included. -/
theorem State.csrWrite_csrRaw_of_ne {a : CsrNum} (hsie : a ≠ Csr.sie) (s : State) (v : Word) (b : CsrNum) :
    (s.csrWrite a v).csrRaw b = if b = a then v else s.csrRaw b := by
  by_cases hsatp : a = Csr.satp
  · rw [hsatp, State.csrWrite_satp, State.setPaging_csrRaw, State.csrRaw_setCsr]
  · rw [State.csrWrite_of_ne hsie hsatp, State.csrRaw_setCsr]

/-- Only the delegated bits of `mie` come from the value written to `sie` (R397). -/
theorem State.getLsbD_mie_csrWrite_sie (s : State) (v : Word) {j : Nat} (hj : j < 64) :
    ((s.csrWrite Csr.sie v).csrRaw Csr.mie).getLsbD j =
      if (s.csrRaw Csr.mideleg).getLsbD j = true then v.getLsbD j else (s.csrRaw Csr.mie).getLsbD j := by
  rw [State.csrWrite_sie, State.csrRaw_setCsr_self]
  cases hd : (s.csrRaw Csr.mideleg).getLsbD j <;> simp [hj, hd, -BitVec.getLsbD_eq_getElem]

/-- What a CSR write followed by a register write leaves alone. -/
structure CsrFrame (rd : RegIdx) (s t : State) : Prop where
  regs    : SameRegsBut rd s t
  pc      : t.pc = s.pc
  mode    : t.mode = s.mode
  resv    : t.resv = s.resv
  halted  : t.halted = s.halted
  cfg     : t.cfg = s.cfg
  input   : t.input = s.input
  memory  : SameMemory s t
  devices : SameDevices s t

theorem csrFrame_setReg_csrWrite (s : State) (rd : RegIdx) (a : CsrNum) (v w : Word) :
    CsrFrame rd s ((s.csrWrite a v).setReg rd w) where
  regs r hr := by simp [State.setReg_other _ hr]
  pc := by simp
  mode := by simp
  resv := by simp
  halted := by simp
  cfg := by simp
  input := by simp
  memory _ := by simp
  devices := by constructor <;> simp

/-- Settles O47: on another CSR than `sie` and `satp` the write is one entry of the bank. -/
theorem csrInstructions : Obligations.CsrInstructions := by
  unfold Obligations.CsrInstructions
  intro s rd rs1 uimm a hsie hsatp f hf
  have hread : s.csrRead a = s.csrRaw a := if_neg hsie
  have hframe := csrFrame_setReg_csrWrite s rd a (f.2 (s.csrRead a)) (s.csrRead a)
  refine ⟨_, exec_csrForms s rd rs1 uimm a f hf, ?_, fun b => ?_, hframe.regs, hframe.pc,
    hframe.mode, ?_, ?_, hframe.resv, hframe.halted, hframe.cfg, hframe.input, hframe.memory, hframe.devices⟩
  · rw [← hread]; exact reg_setReg_self _ rd _
  · rw [State.setReg_csrRaw, State.csrWrite_csrRaw_of_ne hsie, hread]
  · simp [State.csrWrite_of_ne hsie hsatp]
  · simp [State.csrWrite_of_ne hsie hsatp]

/-- Settles O48: what is written to `sie` goes to `mie` alone, and `satp` is written together with the paging state. -/
theorem csrInstructionsOnSieAndSatp : Obligations.CsrInstructionsOnSieAndSatp := by
  unfold Obligations.CsrInstructionsOnSieAndSatp
  intro s rd rs1 uimm
  refine ⟨fun f hf => ?sie, fun f hf => ?satp⟩
  case sie =>
    have hframe := csrFrame_setReg_csrWrite s rd Csr.sie (f.2 (s.csrRead Csr.sie)) (s.csrRead Csr.sie)
    refine ⟨_, exec_csrForms s rd rs1 uimm Csr.sie f hf, reg_setReg_self _ rd _, fun j hj => ?_, fun b hb => ?_,
      hframe.regs, hframe.pc, hframe.mode, ?_, ?_, hframe.resv, hframe.halted, hframe.cfg, hframe.input, hframe.memory,
      hframe.devices⟩
    · rw [State.setReg_csrRaw]
      exact s.getLsbD_mie_csrWrite_sie _ hj
    · rw [State.setReg_csrRaw, State.csrWrite_sie, State.csrRaw_setCsr_other _ hb]
    · simp [State.csrWrite_sie]
    · simp [State.csrWrite_sie]
  case satp =>
    have hframe := csrFrame_setReg_csrWrite s rd Csr.satp (f.2 (s.csrRaw Csr.satp)) (s.csrRaw Csr.satp)
    refine ⟨_, exec_csrForms s rd rs1 uimm Csr.satp f hf, reg_setReg_self _ rd _, fun b => ?_, ?_, ?_,
      hframe.regs, hframe.pc, hframe.mode, hframe.resv, hframe.halted, hframe.cfg, hframe.input, hframe.memory,
      hframe.devices⟩
    · rw [State.setReg_csrRaw]
      exact State.csrWrite_csrRaw_of_ne (by decide) s _ b
    · rw [State.setReg_paging]
      exact satpPaging_iff _
    · rw [State.setReg_ptRoot]
      exact satpRoot_toNat s.cfg _

end Sys2Proof.Machine
end

section
/-! Traps and the interrupt check (60_exceptions.md R450 to R463, R531): the causes, the device poll, the selection by
priority, and the console input agent. -/

namespace Sys2Proof.Machine

open Sys2Proof.Safety

/-! ## Traps -/

/-- The cause of R453 and R460 as a number: the code, with bit 63 for an interrupt. -/
theorem Trap.cause_eq (tr : Trap) :
    tr.cause = BitVec.ofNat 64 ((if tr.isInterrupt = true then 2 ^ 63 else 0) + tr.code) := by
  cases tr with
  | exc e => simp [Trap.cause, Trap.isInterrupt]
  | int i => cases i <;> rfl

/-- The saved pc of R460. -/
theorem State.trapEpc_eq (s : State) (tr : Trap) :
    s.trapEpc tr = if tr.isInterrupt = true ∧ s.cfg.intrEpc = .pc then s.pc else s.pc - 4 := by
  simp [State.trapEpc]

/-- Settles O13: the trap that is taken is the one described, with its cause and its saved pc written as numbers. -/
theorem trapEntry : Obligations.TrapEntry := by
  unfold Obligations.TrapEntry
  intro s tr
  rw [← Trap.cause_eq, ← State.trapEpc_eq]
  exact ⟨trapTaken_takeTrap s tr, s.takeTrap_halted tr⟩

/-- Settles O14: the table of R454, and the fatal causes by their codes. -/
theorem causeNumbers : Obligations.CauseNumbers := by
  unfold Obligations.CauseNumbers
  exact ⟨rfl, Exc.fatal_iff_code_mem, rfl⟩

/-! ## The global enable -/

/-- With the enable as a number: clear, the check changes nothing; set, it polls, selects and delivers. -/
theorem interruptCheck_gated {s : State} {ie : Nat} (h : s.interruptEnable = true ↔ ie ≠ 0) :
    (ie = 0 → interruptCheck s = .next s) ∧
    (ie ≠ 0 → (∀ t, pollDevices s = .ok t → interruptCheck s = .next (selectAndDeliver t)) ∧
      ∀ f, pollDevices s = .error f → interruptCheck s = .fault f) := by
  refine ⟨fun h0 => interruptCheck_disabled (by simp [← Bool.not_eq_true, h, h0]), fun h1 => ?_⟩
  have hen := h.2 h1
  exact ⟨fun t ht => by simp only [interruptCheck, hen, ht, if_true],
    fun f hf => by simp only [interruptCheck, hen, hf, if_true]⟩

/-- Settles O17: in each mode the enable is the bit R450 names. -/
theorem globalEnableGatesTheCheck : Obligations.GlobalEnableGatesTheCheck := by
  unfold Obligations.GlobalEnableGatesTheCheck
  intro s
  refine interruptCheck_gated ?_
  cases hm : s.mode with
  | machine => simp [State.interruptEnable, hm, mieBit, bit_eq_zero_iff]
  | supervisor => simp [State.interruptEnable, hm, sieBit, bit_eq_zero_iff]
  | user => simp [State.interruptEnable, hm]

/-! ## The device poll -/

theorem announced_announce (s : State) (irq : BitVec 32) : Announced irq s (s.announce irq) := by
  unfold State.announce
  split
  · next h0 =>
    exact ⟨by simp [h0], fun a b _ => by simp [h0], SameRegs.rfl' s, SameMemory.rfl' s, by simp⟩
  · next h0 =>
    refine ⟨(if_neg h0).symm, fun a b hb => ?_, fun r => by simp, fun a => by simp, by simp⟩
    rw [State.csrRaw_setCsr, State.setPlic_csrRaw]
    split
    · rw [getLsbD_setBit _ _ _ _ hb]
      grind
    · grind

theorem pollDevices_console {s : State} (h : s.uart.intr = true) :
    pollDevices s = .ok ((s.setUart { s.uart with intr := false }).announce s.cfg.uartIrq) := by
  simp only [pollDevices, h, if_true]

/-- Settles O18: the poll's three branches, each with what it announces. -/
theorem devicePoll : Obligations.DevicePoll := by
  unfold Obligations.DevicePoll
  intro s
  refine ⟨fun hu => ⟨_, pollDevices_console hu, announced_announce _ _⟩, fun hu hn => ⟨fun t1 ht => ?_, fun f hf => ?_⟩,
    fun hu hn => ?_⟩
  · exact ⟨t1.announce s.cfg.virtioIrq, by simp [pollDevices, hu, hn, ht], announced_announce _ _⟩
  · simp [pollDevices, hu, hn, hf]
  · simp [pollDevices, hu, hn]

/-! ## Selection and priority -/

/-- The timer condition sets bit 7 of the pending word (R503). -/
theorem effectivePending_eq (mip : Word) (c : Clint) :
    effectivePending mip c = if c.mtimecmp.toNat ≤ c.mtime.toNat then setBit mip 7 true else mip := by
  by_cases h : c.mtimecmp.toNat ≤ c.mtime.toNat <;> simp [effectivePending, Clint.mtipCond, setBit, h]

/-- A pending and enabled interrupt is a set bit of the word that the selection looks at. -/
theorem pendingEnabled_iff (s : State) {b : Nat} (hb : b < 64) :
    PendingEnabled s b ↔ s.pendingEnabled.getLsbD b = true := by
  rw [PendingEnabled, State.pendingEnabled, effectivePending_eq, BitVec.getLsbD_and, Bool.and_eq_true, bit_eq_one_iff,
    bit_eq_one_iff]
  split
  · rw [getLsbD_setBit _ _ _ _ hb]
    grind
  · grind

theorem Interrupt.code_lt (i : Interrupt) : i.code < 64 := by cases i <;> decide

/-- The order of R452, as the numbers of the interrupts. -/
theorem priorityOrder_codes : [11, 3, 7, 9, 1, 5] = Interrupt.priorityOrder.map Interrupt.code := rfl

/-- With none of the six pending and enabled, none is selected. -/
theorem selectInterrupt_none {s : State} (h : ∀ b ∈ [11, 3, 7, 9, 1, 5], ¬PendingEnabled s b) :
    selectInterrupt s = none := by
  rw [priorityOrder_codes, List.forall_mem_map] at h
  exact List.find?_eq_none.2 fun i hi => mt (pendingEnabled_iff s i.code_lt).2 (h i hi)

/-- The first of the order that is pending and enabled is selected. -/
theorem selectInterrupt_some {s : State} {before : List Nat} {b : Nat} {after : List Nat}
    (hl : [11, 3, 7, 9, 1, 5] = before ++ b :: after) (hbefore : ∀ c ∈ before, ¬PendingEnabled s c)
    (hb : PendingEnabled s b) : ∃ i : Interrupt, i.code = b ∧ selectInterrupt s = some i := by
  obtain ⟨l, m, horder, rfl, hm⟩ := List.map_eq_append_iff.1 (priorityOrder_codes.symm.trans hl)
  obtain ⟨i, m, rfl, rfl, -⟩ := List.map_eq_cons_iff.1 hm
  refine ⟨i, rfl, List.find?_eq_some_iff_append.2 ⟨(pendingEnabled_iff s i.code_lt).1 hb, l, m, horder, fun j hj => ?_⟩⟩
  have hj' := hbefore j.code (List.mem_map_of_mem hj)
  rw [pendingEnabled_iff s j.code_lt] at hj'
  simpa using hj'

/-- Settles O19: the selection takes the first of the order, and its bit of `mip` is cleared before the trap. -/
theorem selectsByPriority : Obligations.SelectsByPriority := by
  unfold Obligations.SelectsByPriority
  intro s
  refine ⟨fun h => by simp only [selectAndDeliver, selectInterrupt_none h], fun before b after hl hbefore hb => ?_⟩
  obtain ⟨i, rfl, hi⟩ := selectInterrupt_some hl hbefore hb
  refine ⟨setBit (s.csrRaw Csr.mip) i.code false, fun j => getLsbD_setBit _ _ _ j, ?_, selectAndDeliver_halted s⟩
  simp only [selectAndDeliver, hi, State.takeInterrupt]
  simpa [Trap.isInterrupt, Trap.code] using
    (trapEntry (s.setCsr Csr.mip (setBit (s.csrRaw Csr.mip) i.code false)) (.int i)).1

/-! ## The console input agent -/

theorem Uart.reg_setReg (u : Uart) (off : Nat) (b : Byte) (k : Nat) :
    (u.setReg off b).reg k = if k = off then b else u.reg k :=
  Memory.read_write u.regs off b k

/-- The register file after a byte has come in (R531). -/
theorem Uart.reg_receive (u : Uart) (b : Byte) (k : Nat) :
    (u.receive b).reg k = if k = 0 then b else if k = 5 then u.reg 5 ||| 1 else u.reg k := by
  have hregs : (u.receive b).reg k = ((u.setReg 0 b).setReg 5 ((u.setReg 0 b).lsr ||| 1#8)).reg k := rfl
  rw [hregs, Uart.reg_setReg, Uart.lsr, Uart.reg_setReg, Uart.reg_setReg]
  grind

/-- Settles O20: bit 0 of the line-status register decides whether the next byte waits or is received. -/
theorem consoleInputWaitsForTheReader : Obligations.ConsoleInputWaitsForTheReader := by
  unfold Obligations.ConsoleInputWaitsForTheReader
  intro s b rest hinput
  refine ⟨fun hready => ?_, fun hready => ⟨s.uart.receive b, ?_, rfl, s.uart.reg_receive b⟩⟩
  · have : s.uart.dataReady = true := hready
    simp only [consoleSlot, hinput, this, if_true]
  · have : s.uart.dataReady = false := hready
    simp [consoleSlot, hinput, this]

end Sys2Proof.Machine
end

section
/-! The devices' registers (60_exceptions.md R500 to R537): what a load and a store of the device's own width do at each
offset of its window. -/

namespace Sys2Proof.Machine

open Sys2Proof.Safety

/-- Settles O23: the window answers with the register of the offset, and the store sets that register. -/
theorem timerAndInterruptControllerRegisters : Obligations.TimerAndInterruptControllerRegisters := by
  unfold Obligations.TimerAndInterruptControllerRegisters
  intro s pa v off k hc
  obtain ⟨-, -, hclint, hplic, -⟩ := busRefusals s pa .word v k hc
  refine ⟨fun h => ?timer, fun h => ?controller⟩
  case timer =>
    refine ⟨?_, ?_, fun h1 h2 => hclint off h (by simp [h1, h2])⟩
    all_goals
      rintro rfl
      exact ⟨busLoad_clint k h, busStore_clint k h v⟩
  case controller =>
    simp only [BitVec.ofNat_toNat]
    refine ⟨?_, ?_, ?_, ?_, hplic off h⟩
    all_goals
      rintro rfl
      exact ⟨busLoad_plic hc k h, busStore_plic hc k h v⟩

/-! ## The block device -/

/-- The registers of R535 that a store sets. -/
def virtioWritable : List Nat := [0x020, 0x028, 0x030, 0x038, 0x040, 0x050, 0x070]

/-- A register that a store sets reads back what was stored (R537). -/
theorem Virtio.load_store (w : Virtio) {off : Nat} (h : off ∈ virtioWritable) (v : BitVec 32) :
    (w.store off v).load off = v := by
  fin_cases h <;> rfl

theorem setWidth64_setWidth32_eq_ofNat (v : Word) : (v.setWidth 32).setWidth 64 = BitVec.ofNat 64 (v.toNat % 2 ^ 32) :=
  BitVec.eq_of_toNat_eq (by simp)

theorem busLoad_busStore_virtio {s : State} {pa : Word} {off : Nat} (hc : s.cfg.admissible = true)
    (h : AtOffset s.cfg.virtio off pa) (hoff : off ∈ virtioWritable) (v : Word) (k : AccessKind) :
    ∃ t, busStore s pa .word v k = .ok t ∧ busLoad t pa .word k = .ok (BitVec.ofNat 64 (v.toNat % 2 ^ 32), t) := by
  have hload := busLoad_virtio (s := s.setVirtio (s.virtio.store off (v.setWidth 32))) hc k h
  rw [State.setVirtio_virtio, Virtio.load_store _ hoff, setWidth64_setWidth32_eq_ofNat] at hload
  exact ⟨_, busStore_virtio hc k h v, hload⟩

/-- Settles O24: the window answers with the register of the offset; the store sets that register, and nothing at the
offset of a constant. -/
theorem blockDeviceRegisters : Obligations.BlockDeviceRegisters := by
  unfold Obligations.BlockDeviceRegisters
  intro s pa v off k hc h
  obtain ⟨-, -, -, -, hvirtio⟩ := busRefusals s pa .word v k hc
  have hload := busLoad_virtio hc k h
  have hstore := busStore_virtio hc k h v
  simp only [BitVec.ofNat_toNat]
  refine ⟨fun p hp => ?constants, ?_, ?_, ?_, ?_, ?_, ?_, ?_, fun hoff => busLoad_busStore_virtio hc h hoff v k,
    hvirtio off h⟩
  case constants => fin_cases hp <;> rintro rfl <;> exact ⟨hload, hstore⟩
  all_goals
    rintro rfl
    exact ⟨hload, hstore⟩

/-! ## The console -/

section Console

variable {s : State} {pa : Word} {off : Nat} (hc : s.cfg.admissible = true) (k : AccessKind)
  (h : AtOffset s.cfg.uart off pa)
include hc h

theorem busLoad_uart :
    busLoad s pa .byte k = .ok ((s.uart.reg off).setWidth 64, s.setUart (s.uart.afterLoad off)) := by
  obtain ⟨hw, rfl⟩ := inWindow_of_atOffset h
  simp [busLoad, regionOf_uart hc hw]

theorem busStore_uart (v : Word) : busStore s pa .byte v k = .ok (uartStore s off (v.setWidth 8)) := by
  obtain ⟨hw, rfl⟩ := inWindow_of_atOffset h
  simp [busStore, regionOf_uart hc hw]

end Console

/-- Reading RHR clears bit 0 of the line-status register and nothing else (R526). -/
theorem Uart.getLsbD_lsr_afterLoad (u : Uart) {b : Nat} (hb : b < 8) :
    ((u.afterLoad 0).reg 5).getLsbD b = if b = 0 then false else (u.reg 5).getLsbD b := by
  have hone : (1#8).getLsbD b = decide (b = 0) := by simp [BitVec.getLsbD_one]
  rw [Uart.afterLoad, if_pos rfl, Uart.reg_setReg, if_pos rfl, Uart.lsr, BitVec.getLsbD_and, BitVec.getLsbD_not, hone]
  grind

/-- Settles O25: offset 0 emits and receives, every other offset is a byte of the register file. -/
theorem consoleRegisters : Obligations.ConsoleRegisters := by
  unfold Obligations.ConsoleRegisters
  intro s pa v off k hc h
  have hload := busLoad_uart hc k h
  have hstore := busStore_uart hc k h v
  simp only [BitVec.ofNat_toNat]
  refine ⟨?_, fun hoff => ?_⟩
  · rintro rfl
    refine ⟨hstore, _, hload, rfl, fun q hq => ?_, fun b => s.uart.getLsbD_lsr_afterLoad⟩
    exact (Uart.reg_setReg _ _ _ _).trans (if_neg hq)
  · rw [Uart.afterLoad, if_neg hoff] at hload
    rw [uartStore, if_neg hoff] at hstore
    exact ⟨hload, _, hstore, rfl, Uart.reg_setReg _ _ _⟩

end Sys2Proof.Machine
end

section
/-! Atomic memory operations (48_atomic.md R411 to R439): each instruction is one of three templates, and a template's
answer is fixed by the alignment, the translation, the reservation and the bus. -/

namespace Sys2Proof.Machine

open Sys2Proof.Safety

/-! ## The templates, in the order of their checks -/

section Templates

variable {n : Width} {rd rs1 rs2 : RegIdx} {s : State} {op : Word → Word → Word}

section Misaligned

variable (ha : (s.reg rs1).toNat % n.bytes ≠ 0)
include ha

theorem loadReserved_of_misaligned : loadReserved n rd rs1 s = raise .loadAddressMisaligned s :=
  if_neg (mt (alignedTo_iff n _).1 ha)

theorem storeConditional_of_misaligned : storeConditional n rd rs1 rs2 s = raise .storeAmoAddressMisaligned s :=
  if_neg (mt (alignedTo_iff n _).1 ha)

theorem readModifyWrite_of_misaligned : readModifyWrite n op rd rs1 rs2 s = raise .storeAmoAddressMisaligned s :=
  if_neg (mt (alignedTo_iff n _).1 ha)

end Misaligned

variable (ha : (s.reg rs1).toNat % n.bytes = 0)
include ha

theorem loadReserved_of_untranslated {e : Exc} (ht : translate s (s.reg rs1) .load = .error e) :
    loadReserved n rd rs1 s = raise e s := by
  simp only [loadReserved, (alignedTo_iff n _).2 ha, ht, if_true]

theorem storeConditional_of_untranslated {e : Exc} (ht : translate s (s.reg rs1) .store = .error e) :
    storeConditional n rd rs1 rs2 s = raise e s := by
  simp only [storeConditional, (alignedTo_iff n _).2 ha, ht, if_true]

theorem readModifyWrite_of_untranslated {e : Exc} (ht : translate s (s.reg rs1) .store = .error e) :
    readModifyWrite n op rd rs1 rs2 s = raise e s := by
  simp only [readModifyWrite, (alignedTo_iff n _).2 ha, ht, if_true]

variable {pa : Word}

theorem loadReserved_of_refused {e : Exc} (ht : translate s (s.reg rs1) .load = .ok pa)
    (hb : busLoad s pa n .load = .error e) : loadReserved n rd rs1 s = raise .loadAccessFault s := by
  obtain rfl : e = .loadAccessFault := busLoad_error hb
  simp only [loadReserved, (alignedTo_iff n _).2 ha, ht, hb, if_true]

theorem loadReserved_of_loaded {x : Word} {s' : State} (ht : translate s (s.reg rs1) .load = .ok pa)
    (hb : busLoad s pa n .load = .ok (x, s')) :
    loadReserved n rd rs1 s = .next ((s'.setResv (some pa)).setReg rd (signExtendFrom n x)) := by
  simp only [loadReserved, (alignedTo_iff n _).2 ha, ht, hb, if_true]

variable (ht : translate s (s.reg rs1) .store = .ok pa)
include ht

theorem storeConditional_of_unreserved (hr : s.resv ≠ some pa) :
    storeConditional n rd rs1 rs2 s = .next ((s.setResv none).setReg rd 1) := by
  simp only [storeConditional, (alignedTo_iff n _).2 ha, ht, hr, if_true, if_false]

theorem storeConditional_of_refused {e : Exc} (hr : s.resv = some pa)
    (hb : busStore s pa n (s.reg rs2) .store = .error e) :
    storeConditional n rd rs1 rs2 s = raise .storeAmoAccessFault s := by
  obtain rfl : e = .storeAmoAccessFault := busStore_error hb
  simp only [storeConditional, (alignedTo_iff n _).2 ha, ht, hr, hb, if_true]

theorem storeConditional_of_stored {t : State} (hr : s.resv = some pa)
    (hb : busStore s pa n (s.reg rs2) .store = .ok t) :
    storeConditional n rd rs1 rs2 s = .next ((t.setResv none).setReg rd 0) := by
  simp only [storeConditional, (alignedTo_iff n _).2 ha, ht, hr, hb, if_true]

theorem readModifyWrite_of_refused {e : Exc} (hb : busLoad s pa n .store = .error e) :
    readModifyWrite n op rd rs1 rs2 s = raise .storeAmoAccessFault s := by
  obtain rfl : e = .storeAmoAccessFault := busLoad_error hb
  simp only [readModifyWrite, (alignedTo_iff n _).2 ha, ht, hb, if_true]

theorem readModifyWrite_of_stored {x : Word} {s' t : State} (hb : busLoad s pa n .store = .ok (x, s'))
    (hs : busStore s' pa n (op x (s.reg rs2)) .store = .ok t) :
    readModifyWrite n op rd rs1 rs2 s = .next (t.setReg rd (signExtendFrom n x)) := by
  simp only [readModifyWrite, (alignedTo_iff n _).2 ha, ht, hb, hs, if_true]

end Templates

/-! ## The forms -/

theorem exec_loadReserved (s : State) (rd rs1 : RegIdx) (aq rl : Bool) :
    ∀ f ∈ [(Instr.lrW rd rs1 aq rl, Width.word), (Instr.lrD rd rs1 aq rl, Width.double)],
      f.2 ≠ .byte ∧ exec f.1 s = loadReserved f.2 rd rs1 s := by
  intro f hf
  fin_cases hf <;> exact ⟨nofun, rfl⟩

theorem exec_storeConditional (s : State) (rd rs1 rs2 : RegIdx) (aq rl : Bool) :
    ∀ f ∈ [(Instr.scW rd rs1 rs2 aq rl, Width.word), (Instr.scD rd rs1 rs2 aq rl, Width.double)],
      exec f.1 s = storeConditional f.2 rd rs1 rs2 s := by
  intro f hf
  fin_cases hf <;> rfl

/-- A storing atomic is SC or an AMO, which is an operation put into its template. -/
theorem exec_storingAtomics (s : State) (rd rs1 rs2 : RegIdx) (aq rl : Bool) :
    ∀ f ∈ storingAtomics rd rs1 rs2 aq rl,
      (isReservation f.1 = true ∧ exec f.1 s = storeConditional f.2 rd rs1 rs2 s) ∨
      (isReservation f.1 = false ∧ ∃ op, exec f.1 s = readModifyWrite f.2 op rd rs1 rs2 s) := by
  intro f hf
  fin_cases hf
  · exact .inl ⟨rfl, rfl⟩
  · exact .inl ⟨rfl, rfl⟩
  all_goals exact .inr ⟨rfl, _, rfl⟩

section Operations

variable {w : Nat}

theorem amoMin_eq : (amoMin : BitVec w → BitVec w → BitVec w) = fun t b => if t.toInt ≤ b.toInt then t else b := by
  funext t b; simp [amoMin, BitVec.sle]

theorem amoMax_eq : (amoMax : BitVec w → BitVec w → BitVec w) = fun t b => if t.toInt ≥ b.toInt then t else b := by
  funext t b; simp [amoMax, BitVec.sle]

theorem amoMinu_eq : (amoMinu : BitVec w → BitVec w → BitVec w) = fun t b => if t.toNat ≤ b.toNat then t else b := by
  funext t b; simp [amoMinu, BitVec.ule]

theorem amoMaxu_eq : (amoMaxu : BitVec w → BitVec w → BitVec w) = fun t b => if t.toNat ≥ b.toNat then t else b := by
  funext t b; simp [amoMaxu, BitVec.ule]

end Operations

theorem exec_amoWordForms (s : State) (rd rs1 rs2 : RegIdx) (aq rl : Bool) :
    ∀ f ∈ amoWordForms rd rs1 rs2 aq rl, exec f.1 s = readModifyWrite .word (onWords f.2) rd rs1 rs2 s := by
  intro f hf
  rw [amoWordForms, ← amoMin_eq, ← amoMax_eq, ← amoMinu_eq, ← amoMaxu_eq] at hf
  fin_cases hf <;> rfl

theorem exec_amoDoubleForms (s : State) (rd rs1 rs2 : RegIdx) (aq rl : Bool) :
    ∀ f ∈ amoDoubleForms rd rs1 rs2 aq rl, exec f.1 s = readModifyWrite .double f.2 rd rs1 rs2 s := by
  intro f hf
  rw [amoDoubleForms, ← amoMin_eq, ← amoMax_eq, ← amoMinu_eq, ← amoMaxu_eq] at hf
  fin_cases hf <;> rfl

/-- An operation on words, with its operands and its result as numbers (R420). -/
theorem onWords_eq (op : BitVec 32 → BitVec 32 → BitVec 32) (t b : Word) :
    onWords op t b = BitVec.ofNat 64 (op (BitVec.ofNat 32 t.toNat) (BitVec.ofNat 32 b.toNat)).toNat := by
  simp [onWords, low32]

/-! ## Frames -/

theorem onlyRegAndResv_setReg_setResv (s : State) (rd : RegIdx) (r : Option Word) (v : Word) :
    OnlyRegAndResv rd s ((s.setResv r).setReg rd v) where
  regs q hq := by simp [State.setReg_other _ hq]
  pc := by simp
  system := by constructor <;> simp
  memory _ := by simp
  devices := by constructor <;> simp

/-- What the writes of memory, of the reservation and of one register leave alone. -/
structure AtomicFrame (rd : RegIdx) (s t : State) : Prop where
  regs    : SameRegsBut rd s t
  pc      : t.pc = s.pc
  system  : SameSystem s t
  devices : SameDevices s t

theorem atomicFrame_setReg_setResv_setMem (s : State) (m : List Host.Cell) (r : Option Word) (rd : RegIdx) (v : Word) :
    AtomicFrame rd s (((s.setMem m).setResv r).setReg rd v) where
  regs q hq := by simp [State.setReg_other _ hq]
  pc := by simp
  system := by constructor <;> simp
  devices := by constructor <;> simp

theorem atomicFrame_setReg_setMem (s : State) (m : List Host.Cell) (rd : RegIdx) (v : Word) :
    AtomicFrame rd s ((s.setMem m).setReg rd v) :=
  atomicFrame_setReg_setResv_setMem s m s.resv rd v

theorem storedAt_of_mem {s t : State} {a n : Nat} {v : Word} (h : t.mem = Memory.writeLE s.mem a n v) :
    StoredAt s t a n v := by
  intro q
  rw [State.byte, h]
  exact storedAt_writeLE s a n v q

/-! ## LR and SC -/

/-- Settles O49: the checks of R413 in their order; the bus read of a word or a doubleword changes nothing, so what is
left are the writes of the reservation and of the register. -/
theorem loadReservedInstructions : Obligations.LoadReservedInstructions := by
  unfold Obligations.LoadReservedInstructions
  intro s rd rs1 aq rl f hf
  obtain ⟨hn, hexec⟩ := exec_loadReserved s rd rs1 aq rl f hf
  refine ⟨fun ha => traps_of_exec (hexec.trans (loadReserved_of_misaligned ha)), fun ha =>
    ⟨fun e ht => traps_of_exec (hexec.trans (loadReserved_of_untranslated ha ht)), fun pa ht =>
      ⟨fun e hb => traps_of_exec (hexec.trans (loadReserved_of_refused ha ht hb)), fun x s' hb => ?_⟩⟩⟩
  obtain rfl := busLoad_wide hb hn
  exact ⟨_, _, hexec.trans (loadReserved_of_loaded ha ht hb), toInt_signExtendFrom f.2 x, reg_setReg_self _ rd _,
    State.setReg_resv _ _ _, onlyRegAndResv_setReg_setResv _ rd _ _⟩

/-- `x0` reads 0 whether or not it is written. -/
theorem written_zero (rd : RegIdx) : written rd 0 = 0 := ite_self 0

/-- Settles O50: the reservation on the translated address decides between the bus store, which inside DRAM writes the low
bytes there, and nothing. -/
theorem storeConditionalInstructions : Obligations.StoreConditionalInstructions := by
  unfold Obligations.StoreConditionalInstructions
  intro s rd rs1 rs2 aq rl pa hc ht f hf ha
  have hexec := exec_storeConditional s rd rs1 rs2 aq rl f hf
  refine ⟨fun hr ⟨hbase, hend⟩ => ?dram, fun hr t1 hb => ?bus, fun hr => ?fails⟩
  case dram =>
    have hframe := atomicFrame_setReg_setResv_setMem s (Memory.writeLE s.mem pa.toNat f.2.bytes (s.reg rs2)) none rd 0
    exact ⟨_, hexec.trans (storeConditional_of_stored ha ht hr (busStore_dram hc hbase hend .store)),
      (reg_setReg_self _ rd 0).trans (written_zero rd), State.setReg_resv _ _ _,
      storedAt_of_mem (State.setReg_mem _ _ _), hframe.regs, hframe.pc, hframe.system,
      hframe.devices⟩
  case bus =>
    exact ⟨_, hexec.trans (storeConditional_of_stored ha ht hr hb), (reg_setReg_self _ rd 0).trans (written_zero rd),
      State.setReg_resv _ _ _, onlyRegAndResv_setReg_setResv t1 rd none 0⟩
  case fails =>
    exact ⟨_, hexec.trans (storeConditional_of_unreserved ha ht hr), reg_setReg_self _ rd 1, State.setReg_resv _ _ _,
      onlyRegAndResv_setReg_setResv s rd none 1⟩

/-! ## Traps of SC and the AMOs -/

/-- Where the bus refuses a load it refuses the store. -/
theorem busStore_of_load_refused {s : State} {pa : Word} {n : Width} {k : AccessKind} {e : Exc}
    (h : busLoad s pa n k = .error e) (v : Word) : ∃ e', busStore s pa n v k = .error e' := by
  cases hs : busStore s pa n v k with
  | error e' => exact ⟨e', rfl⟩
  | ok t =>
    obtain ⟨x, s', hl⟩ := (busLoad_isOk_iff s pa n k).2 ((busStore_isOk_iff s pa v n k).1 ⟨t, hs⟩)
    rw [h] at hl
    cases hl

/-- Settles O51: both templates check the alignment, then the translation, and then ask the bus, SC only with its
reservation. -/
theorem storingAtomicsTrap : Obligations.StoringAtomicsTrap := by
  unfold Obligations.StoringAtomicsTrap
  intro s rd rs1 rs2 aq rl f hf
  obtain ⟨hsc, hexec⟩ | ⟨-, op, hexec⟩ := exec_storingAtomics s rd rs1 rs2 aq rl f hf
  · refine ⟨fun ha => traps_of_exec (hexec.trans (storeConditional_of_misaligned ha)), fun ha =>
      ⟨fun e ht => traps_of_exec (hexec.trans (storeConditional_of_untranslated ha ht)), fun pa e ht hb hr => ?_⟩⟩
    have hresv : s.resv = some pa := hr.resolve_left (by simp [hsc])
    obtain ⟨e', hs⟩ := busStore_of_load_refused hb (s.reg rs2)
    exact traps_of_exec (hexec.trans (storeConditional_of_refused ha ht hresv hs))
  · exact ⟨fun ha => traps_of_exec (hexec.trans (readModifyWrite_of_misaligned ha)), fun ha =>
      ⟨fun e ht => traps_of_exec (hexec.trans (readModifyWrite_of_untranslated ha ht)), fun pa e ht hb _ =>
        traps_of_exec (hexec.trans (readModifyWrite_of_refused ha ht hb))⟩⟩

/-! ## The AMOs -/

section Amo

variable {n : Width} {rd rs1 rs2 : RegIdx} {s : State} {pa : Word} (op : Word → Word → Word)
  (hc : s.cfg.admissible = true) (ha : (s.reg rs1).toNat % n.bytes = 0) (ht : translate s (s.reg rs1) .store = .ok pa)
include hc ha ht

/-- An AMO inside DRAM: one write of memory and one of the register. -/
theorem readModifyWrite_dram (h : InDram s pa.toNat n.bytes) :
    ∃ x, x.toNat = littleEndian s pa.toNat n.bytes ∧ readModifyWrite n op rd rs1 rs2 s =
      .next ((s.setMem (Memory.writeLE s.mem pa.toNat n.bytes (op x (s.reg rs2)))).setReg rd (signExtendFrom n x)) := by
  obtain ⟨hbase, hend⟩ := h
  exact ⟨_, readLE_toNat_eq s pa.toNat n, readModifyWrite_of_stored ha ht (busLoad_dram hc hbase hend .store)
    (busStore_dram hc hbase hend .store)⟩

/-- Wherever its bus read succeeds, an AMO is the bus store and one write of the register. -/
theorem readModifyWrite_bus (hn : n ≠ .byte) {x : Word} {s' : State} (hb : busLoad s pa n .store = .ok (x, s')) :
    ∃ t1, busStore s pa n (op x (s.reg rs2)) .store = .ok t1 ∧
      readModifyWrite n op rd rs1 rs2 s = .next (t1.setReg rd (signExtendFrom n x)) := by
  obtain rfl := busLoad_wide hb hn
  obtain ⟨-, ⟨t1, hs⟩, -⟩ := loadsAreHarmless _ _ pa x (op x (s'.reg rs2)) n .store hc hb
  exact ⟨t1, hs, readModifyWrite_of_stored ha ht hb hs⟩

end Amo

/-- Settles O52: the template at four bytes, with the operation on the low words. -/
theorem amosOnWords : Obligations.AmosOnWords := by
  unfold Obligations.AmosOnWords
  intro s rd rs1 rs2 aq rl pa hc ha ht f hf
  have hexec := exec_amoWordForms s rd rs1 rs2 aq rl f hf
  refine ⟨fun hin => ?dram, fun x s' hb => ?bus⟩
  case dram =>
    obtain ⟨x, hx, hrun⟩ := readModifyWrite_dram (n := .word) (rd := rd) (rs2 := rs2) (onWords f.2) hc ha ht hin
    have hframe := atomicFrame_setReg_setMem s (Memory.writeLE s.mem pa.toNat 4 (onWords f.2 x (s.reg rs2))) rd
      (signExtendFrom .word x)
    refine ⟨_, _, hexec.trans hrun, ?_, reg_setReg_self _ rd _, ?_, hframe.regs, hframe.pc, State.setReg_resv _ _ _,
      hframe.system, hframe.devices⟩
    · rw [toInt_signExtendFrom, hx]; rfl
    · have hx4 : littleEndian s pa.toNat 4 = x.toNat := hx.symm
      rw [hx4, ← onWords_eq]
      exact storedAt_of_mem (State.setReg_mem _ _ _)
  case bus =>
    obtain ⟨t1, hs, hrun⟩ := readModifyWrite_bus (rd := rd) (rs2 := rs2) (onWords f.2) hc ha ht (by decide) hb
    rw [← onWords_eq]
    exact ⟨_, t1, _, hs, hexec.trans hrun, toInt_signExtendFrom .word x, reg_setReg_self _ rd _, onlyReg_setReg t1 rd _⟩

/-- Settles O53: the template at eight bytes, where the value loaded is the register value. -/
theorem amosOnDoublewords : Obligations.AmosOnDoublewords := by
  unfold Obligations.AmosOnDoublewords
  intro s rd rs1 rs2 aq rl pa hc ha ht f hf
  have hexec := exec_amoDoubleForms s rd rs1 rs2 aq rl f hf
  refine ⟨fun hin => ?dram, fun x s' hb => ?bus⟩
  case dram =>
    obtain ⟨x, hx, hrun⟩ := readModifyWrite_dram (n := .double) (rd := rd) (rs2 := rs2) f.2 hc ha ht hin
    have hframe := atomicFrame_setReg_setMem s (Memory.writeLE s.mem pa.toNat 8 (f.2 x (s.reg rs2))) rd x
    exact ⟨_, x, hexec.trans hrun, hx, reg_setReg_self _ rd x, storedAt_of_mem (State.setReg_mem _ _ _),
      hframe.regs, hframe.pc, State.setReg_resv _ _ _, hframe.system, hframe.devices⟩
  case bus =>
    obtain ⟨t1, hs, hrun⟩ := readModifyWrite_bus (rd := rd) (rs2 := rs2) f.2 hc ha ht (by decide) hb
    exact ⟨_, t1, hs, hexec.trans hrun, reg_setReg_self _ rd x, onlyReg_setReg t1 rd x⟩

end Sys2Proof.Machine
end

section
/-! What an instruction can write (60_exceptions.md R457, R472): of each template it is shown that a next state is a
delivered exception or differs only in what the instruction's class may write; an instruction is one template. -/

namespace Sys2Proof.Machine

open Sys2Proof.Safety

/-! ## Permissions -/

/-- What an instruction is allowed to write: its destination, and each kind of state. -/
structure Permissions where
  dest    : Option RegIdx
  mode    : Bool
  pc      : Bool
  resv    : Bool
  csr     : Bool
  paging  : Bool
  stores  : Bool
  console : Bool

/-- The permissions of an instruction's class. -/
def permissions (i : Instr) : Permissions where
  dest    := destination i
  mode    := isTrapReturn i
  pc      := isTrapReturn i || isJumpOrBranch i
  resv    := isReservation i
  csr     := isTrapReturn i || isCsrInstr i
  paging  := isCsrInstr i
  stores  := isStoring i
  console := isStoring i || isLoad i

/-- `t` differs from `s` only in what `p` allows. -/
structure WritesOnly (p : Permissions) (s t : State) : Prop where
  cfg     : t.cfg = s.cfg
  halted  : t.halted = s.halted
  input   : t.input = s.input
  disk    : t.disk = s.disk
  regs    : ∀ r, p.dest ≠ some r → t.reg r = s.reg r ∧ t.isWritten r = s.isWritten r
  mode    : p.mode = false → t.mode = s.mode
  pc      : p.pc = false → t.pc = s.pc
  resv    : p.resv = false → t.resv = s.resv
  csr     : p.csr = false → ∀ a, t.csrRaw a = s.csrRaw a
  paging  : p.paging = false → t.paging = s.paging ∧ t.ptRoot = s.ptRoot
  stores  : p.stores = false →
    SameMemory s t ∧ t.clint = s.clint ∧ t.plic = s.plic ∧ t.virtio = s.virtio ∧ t.out = s.out
  console : p.console = false → t.uart = s.uart

section Updates

variable {p : Permissions} {s t u : State}

theorem WritesOnly.refl (p : Permissions) (s : State) : WritesOnly p s s := by
  constructor <;> intros <;> simp [SameMemory.rfl']

theorem WritesOnly.trans (h : WritesOnly p s t) (h' : WritesOnly p t u) : WritesOnly p s u where
  cfg := h'.cfg.trans h.cfg
  halted := h'.halted.trans h.halted
  input := h'.input.trans h.input
  disk := h'.disk.trans h.disk
  regs r hr := ⟨(h'.regs r hr).1.trans (h.regs r hr).1, (h'.regs r hr).2.trans (h.regs r hr).2⟩
  mode hp := (h'.mode hp).trans (h.mode hp)
  pc hp := (h'.pc hp).trans (h.pc hp)
  resv hp := (h'.resv hp).trans (h.resv hp)
  csr hp a := (h'.csr hp a).trans (h.csr hp a)
  paging hp := ⟨(h'.paging hp).1.trans (h.paging hp).1, (h'.paging hp).2.trans (h.paging hp).2⟩
  stores hp := by
    obtain ⟨hmem, hclint, hplic, hvirtio, hout⟩ := h.stores hp
    obtain ⟨hmem', hclint', hplic', hvirtio', hout'⟩ := h'.stores hp
    exact ⟨fun a => (hmem' a).trans (hmem a), hclint'.trans hclint, hplic'.trans hplic, hvirtio'.trans hvirtio,
      hout'.trans hout⟩
  console hp := (h'.console hp).trans (h.console hp)

theorem WritesOnly.setReg {rd : RegIdx} (hp : p.dest = some rd) (s : State) (v : Word) :
    WritesOnly p s (s.setReg rd v) where
  regs r hr := s.setReg_other (fun h => hr (by rw [h, hp])) v
  cfg := by simp
  halted := by simp
  input := by simp
  disk := by simp
  mode _ := by simp
  pc _ := by simp
  resv _ := by simp
  csr _ _ := by simp
  paging _ := by simp
  stores _ := by simp [SameMemory]
  console _ := by simp

theorem WritesOnly.setPc (hp : p.pc = true) (s : State) (a : Word) : WritesOnly p s (s.setPc a) :=
  { WritesOnly.refl p s with pc := by simp [hp] }

theorem WritesOnly.setResv (hp : p.resv = true) (s : State) (r : Option Word) : WritesOnly p s (s.setResv r) :=
  { WritesOnly.refl p s with resv := by simp [hp] }

theorem WritesOnly.setMode (hp : p.mode = true) (s : State) (m : Mode) : WritesOnly p s (s.setMode m) :=
  { WritesOnly.refl p s with mode := by simp [hp] }

theorem WritesOnly.setCsr (hp : p.csr = true) (s : State) (a : CsrNum) (v : Word) : WritesOnly p s (s.setCsr a v) :=
  { WritesOnly.refl p s with csr := by simp [hp] }

theorem WritesOnly.setPaging (hp : p.paging = true) (s : State) (on : Bool) (root : Word) :
    WritesOnly p s (s.setPaging on root) :=
  { WritesOnly.refl p s with paging := by simp [hp] }

theorem WritesOnly.csrWrite (hc : p.csr = true) (hp : p.paging = true) (s : State) (a : CsrNum) (v : Word) :
    WritesOnly p s (s.csrWrite a v) := by
  unfold State.csrWrite
  split
  · exact .setCsr hc s _ _
  · split
    · exact (WritesOnly.setCsr hc s _ _).trans (.setPaging hp _ _ _)
    · exact .setCsr hc s _ _

/-- A bus load writes at most the console. -/
theorem WritesOnly.busLoad (hp : p.console = true) {pa v : Word} {n : Width} {k : AccessKind}
    (h : busLoad s pa n k = .ok (v, t)) : WritesOnly p s t := by
  obtain rfl | ⟨-, -, rfl⟩ := busLoad_ok h
  · exact .refl p t
  · exact { WritesOnly.refl p s with console := by simp [hp] }

/-- A bus store writes memory or one device. -/
theorem WritesOnly.busStore (hs : p.stores = true) (hc : p.console = true) {pa v : Word} {n : Width} {k : AccessKind}
    (h : busStore s pa n v k = .ok t) : WritesOnly p s t := by
  obtain ⟨-, -, rfl⟩ | ⟨_, rfl⟩ | ⟨_, rfl⟩ | ⟨_, rfl⟩ | ⟨_, _, rfl⟩ | ⟨_, rfl⟩ := busStore_ok h <;>
    exact { WritesOnly.refl p s with stores := by simp [hs], console := by simp [hc] }

end Updates

/-! ## The templates -/

/-- Where an answer on `s` is a next state, it is a delivered exception or what `p` allows. -/
def DeliversOrWrites (p : Permissions) (s : State) (a : Result) : Prop :=
  ∀ t, a = .next t → (∃ e, t = s.deliver e) ∨ WritesOnly p s t

section Templates

variable {p : Permissions} {s : State} {n : Width} {rd rs1 rs2 : RegIdx}

theorem deliversOrWrites_raise (e : Exc) : DeliversOrWrites p s (raise e s) := fun _ h => .inl ⟨e, raise_eq h⟩

theorem deliversOrWrites_next {t : State} (h : WritesOnly p s t) : DeliversOrWrites p s (.next t) :=
  fun _ ht => .inr (next_inj ht ▸ h)

theorem writeResult_writes (hp : p.dest = some rd) (v : Word) : DeliversOrWrites p s (writeResult rd v s) :=
  deliversOrWrites_next (.setReg hp s v)

theorem jumpAndLink_writes (hp : p.dest = some rd) (hpc : p.pc = true) (a : Word) :
    DeliversOrWrites p s (jumpAndLink rd a s) := by
  intro t h
  obtain ⟨-, rfl⟩ | ⟨-, rfl⟩ := jumpAndLink_cases h
  · exact .inr ((WritesOnly.setPc hpc s a).trans (.setReg hp _ _))
  · exact .inl ⟨_, rfl⟩

theorem branchIf_writes (hpc : p.pc = true) (c : Bool) (off : BitVec 13) : DeliversOrWrites p s (branchIf c off s) := by
  intro t h
  obtain ⟨-, rfl⟩ | ⟨-, -, rfl⟩ | ⟨-, -, rfl⟩ := branchIf_cases h
  · exact .inr (.refl p t)
  · exact .inr (.setPc hpc s _)
  · exact .inl ⟨_, rfl⟩

theorem loadInto_writes (hp : p.dest = some rd) (hc : p.console = true) (extend : Word → Word) (imm : BitVec 12) :
    DeliversOrWrites p s (loadInto n extend rd rs1 imm s) := by
  intro t h
  obtain ⟨_, _, _, -, hb, rfl⟩ | ⟨e, -, rfl⟩ := loadInto_cases h
  · exact .inr ((WritesOnly.busLoad hc hb).trans (.setReg hp _ _))
  · exact .inl ⟨e, rfl⟩

theorem storeFrom_writes (hs : p.stores = true) (hc : p.console = true) (imm : BitVec 12) :
    DeliversOrWrites p s (storeFrom n rs1 rs2 imm s) := by
  intro t h
  obtain ⟨_, -, hb⟩ | ⟨e, -, rfl⟩ := storeFrom_cases h
  · exact .inr (.busStore hs hc hb)
  · exact .inl ⟨e, rfl⟩

theorem loadReserved_writes (hn : n ≠ .byte) (hp : p.dest = some rd) (hr : p.resv = true) :
    DeliversOrWrites p s (loadReserved n rd rs1 s) := by
  intro t h
  obtain ⟨_, _, -, -, -, rfl⟩ | ⟨e, rfl⟩ := loadReserved_cases hn h
  · exact .inr ((WritesOnly.setResv hr s _).trans (.setReg hp _ _))
  · exact .inl ⟨e, rfl⟩

theorem storeConditional_writes (hp : p.dest = some rd) (hr : p.resv = true) (hs : p.stores = true)
    (hc : p.console = true) : DeliversOrWrites p s (storeConditional n rd rs1 rs2 s) := by
  intro t h
  obtain ⟨_, _, -, -, hb, rfl⟩ | ⟨_, -, -, rfl⟩ | ⟨e, rfl⟩ := storeConditional_cases h
  · exact .inr (((WritesOnly.busStore hs hc hb).trans (.setResv hr _ _)).trans (.setReg hp _ _))
  · exact .inr ((WritesOnly.setResv hr s _).trans (.setReg hp _ _))
  · exact .inl ⟨e, rfl⟩

theorem readModifyWrite_writes (hn : n ≠ .byte) (hp : p.dest = some rd) (hs : p.stores = true) (hc : p.console = true)
    (op : Word → Word → Word) : DeliversOrWrites p s (readModifyWrite n op rd rs1 rs2 s) := by
  intro t h
  obtain ⟨_, _, _, -, -, hb, rfl⟩ | ⟨e, rfl⟩ := readModifyWrite_cases hn h
  · exact .inr ((WritesOnly.busStore hs hc hb).trans (.setReg hp _ _))
  · exact .inl ⟨e, rfl⟩

theorem readModifyCsr_writes (hp : p.dest = some rd) (hc : p.csr = true) (hg : p.paging = true) (a : CsrNum)
    (new : Word → Word) : DeliversOrWrites p s (readModifyCsr rd a new s) :=
  deliversOrWrites_next ((WritesOnly.csrWrite hc hg s _ _).trans (.setReg hp _ _))

theorem execSret_writes (hm : p.mode = true) (hpc : p.pc = true) (hc : p.csr = true) :
    DeliversOrWrites p s (execSret s) :=
  deliversOrWrites_next (((WritesOnly.setCsr hc s _ _).trans (.setMode hm _ _)).trans (.setPc hpc _ _))

theorem execMret_writes (hm : p.mode = true) (hpc : p.pc = true) (hc : p.csr = true) :
    DeliversOrWrites p s (execMret s) := by
  intro t h
  obtain ⟨m, -, rfl⟩ := execMret_cases h
  exact .inr (((WritesOnly.setCsr hc s _ _).trans (.setMode hm _ m)).trans (.setPc hpc _ _))

end Templates

/-- An instruction delivers an exception or writes what its class allows. -/
theorem exec_deliversOrWrites (i : Instr) (s : State) : DeliversOrWrites (permissions i) s (exec i s) := by
  cases i
  case jal | jalr => exact jumpAndLink_writes rfl rfl _
  case beq | bne | blt | bge | bltu | bgeu => exact branchIf_writes rfl _ _
  case lb | lh | lw | ld | lbu | lhu | lwu => exact loadInto_writes rfl rfl _ _
  case sb | sh | sw | sd => exact storeFrom_writes rfl rfl _
  case fence | fenceI | wfi | sfenceVma => exact deliversOrWrites_next (.refl _ s)
  case ecall | ebreak => exact deliversOrWrites_raise _
  case sret => exact execSret_writes rfl rfl rfl
  case mret => exact execMret_writes rfl rfl rfl
  case csrrw | csrrs | csrrc | csrrwi | csrrsi | csrrci =>
    simp only [exec, execCsrrw, execCsrrs, execCsrrc, execCsrrwi, execCsrrsi, execCsrrci]
    exact readModifyCsr_writes rfl rfl rfl _ _
  case lrW | lrD => exact loadReserved_writes (by decide) rfl rfl
  case scW | scD => exact storeConditional_writes rfl rfl rfl rfl
  case amoswapW | amoaddW | amoxorW | amoandW | amoorW | amominW | amomaxW | amominuW | amomaxuW
      | amoswapD | amoaddD | amoxorD | amoandD | amoorD | amominD | amomaxD | amominuD | amomaxuD =>
    exact readModifyWrite_writes (by decide) rfl rfl rfl _
  -- the other forms write one register
  all_goals exact writeResult_writes rfl _

/-- Settles O15: the permissions of an instruction's class, spelled out. -/
theorem onlyTheirClassWrites : Obligations.OnlyTheirClassWrites := by
  unfold Obligations.OnlyTheirClassWrites
  intro i s t h
  refine (exec_deliversOrWrites i s t h).imp_right fun hw => ?_
  exact ⟨hw.cfg, hw.halted, hw.input, hw.disk, hw.regs, hw.mode, fun h1 h2 => hw.pc (by simp [permissions, h1, h2]),
    hw.resv, fun h1 h2 => hw.csr (by simp [permissions, h1, h2]), hw.paging, hw.stores,
    fun h1 h2 => hw.console (by simp [permissions, h1, h2])⟩

end Sys2Proof.Machine
end

section
/-! The privilege mode is not looked at (60_exceptions.md R471; 46_system.md R378): every operation but the trap and ECALL
commutes with setting it. -/

namespace Sys2Proof.Machine

open Sys2Proof.Safety

theorem fetch_setMode (s : State) (m : Mode) : fetch (s.setMode m) = fetch s := by
  unfold fetch
  rw [translate_setMode, State.setMode_pc]
  cases translate s s.pc .fetch with
  | error e => rfl
  | ok pa =>
    dsimp only
    rw [busLoad_setMode]
    cases busLoad s pa .word .fetch <;> rfl

/-- Two answers, on `s` and on `s` with mode `m`, that raise the same exception or differ in the mode alone. -/
def SameButMode (s : State) (m : Mode) (a b : Result) : Prop :=
  (∃ e, a = .next (s.deliver e) ∧ b = .next ((s.setMode m).deliver e)) ∨ ∃ t, a = .next t ∧ b = .next (t.setMode m)

section Mode

variable {s : State} {m : Mode} {n : Width} {rd rs1 rs2 : RegIdx}

theorem sameButMode_raise (e : Exc) : SameButMode s m (raise e s) (raise e (s.setMode m)) := .inl ⟨e, rfl, rfl⟩

theorem sameButMode_next (t : State) : SameButMode s m (.next t) (.next (t.setMode m)) := .inr ⟨t, rfl, rfl⟩

/-- A register write after an update that commutes with the mode. -/
theorem sameButMode_setReg (t : State) (v : Word) :
    SameButMode s m (.next (t.setReg rd v)) (.next ((t.setMode m).setReg rd v)) := by
  rw [← State.setMode_setReg]
  exact sameButMode_next _

theorem writeResult_sameButMode (v : Word) : SameButMode s m (writeResult rd v s) (writeResult rd v (s.setMode m)) :=
  sameButMode_setReg s v

theorem jumpAndLink_sameButMode (a : Word) :
    SameButMode s m (jumpAndLink rd a s) (jumpAndLink rd a (s.setMode m)) := by
  unfold jumpAndLink
  split
  · exact sameButMode_setReg (s.setPc a) s.pc
  · exact sameButMode_raise _

theorem branchIf_sameButMode (c : Bool) (off : BitVec 13) :
    SameButMode s m (branchIf c off s) (branchIf c off (s.setMode m)) := by
  have hipc : (s.setMode m).ipc = s.ipc := rfl
  unfold branchIf
  rw [hipc]
  split
  · split
    · exact sameButMode_next (s.setPc _)
    · exact sameButMode_raise _
  · exact sameButMode_next s

theorem loadInto_sameButMode (extend : Word → Word) (imm : BitVec 12) :
    SameButMode s m (loadInto n extend rd rs1 imm s) (loadInto n extend rd rs1 imm (s.setMode m)) := by
  have hea : (s.setMode m).ea rs1 imm = s.ea rs1 imm := rfl
  unfold loadInto
  rw [hea, translate_setMode]
  cases translate s (s.ea rs1 imm) .load with
  | error e => exact sameButMode_raise e
  | ok pa =>
    dsimp only
    rw [busLoad_setMode]
    cases busLoad s pa n .load with
    | error e => exact sameButMode_raise e
    | ok r => exact sameButMode_setReg r.2 _

theorem storeFrom_sameButMode (imm : BitVec 12) :
    SameButMode s m (storeFrom n rs1 rs2 imm s) (storeFrom n rs1 rs2 imm (s.setMode m)) := by
  have hea : (s.setMode m).ea rs1 imm = s.ea rs1 imm := rfl
  unfold storeFrom
  rw [hea, translate_setMode, State.setMode_reg]
  cases translate s (s.ea rs1 imm) .store with
  | error e => exact sameButMode_raise e
  | ok pa =>
    dsimp only
    rw [busStore_setMode]
    cases busStore s pa n (s.reg rs2) .store with
    | error e => exact sameButMode_raise e
    | ok t => exact sameButMode_next t

theorem loadReserved_sameButMode :
    SameButMode s m (loadReserved n rd rs1 s) (loadReserved n rd rs1 (s.setMode m)) := by
  unfold loadReserved
  rw [translate_setMode, State.setMode_reg]
  split
  · cases translate s (s.reg rs1) .load with
    | error e => exact sameButMode_raise e
    | ok pa =>
      dsimp only
      rw [busLoad_setMode]
      cases busLoad s pa n .load with
      | error e => exact sameButMode_raise e
      | ok r => exact sameButMode_setReg (r.2.setResv (some pa)) _
  · exact sameButMode_raise _

theorem storeConditional_sameButMode :
    SameButMode s m (storeConditional n rd rs1 rs2 s) (storeConditional n rd rs1 rs2 (s.setMode m)) := by
  unfold storeConditional
  rw [translate_setMode, State.setMode_reg, State.setMode_reg, State.setMode_resv]
  split
  · cases translate s (s.reg rs1) .store with
    | error e => exact sameButMode_raise e
    | ok pa =>
      dsimp only
      rw [busStore_setMode]
      split
      · cases busStore s pa n (s.reg rs2) .store with
        | error e => exact sameButMode_raise e
        | ok t => exact sameButMode_setReg (t.setResv none) 0
      · exact sameButMode_setReg (s.setResv none) 1
  · exact sameButMode_raise _

theorem readModifyWrite_sameButMode (op : Word → Word → Word) :
    SameButMode s m (readModifyWrite n op rd rs1 rs2 s) (readModifyWrite n op rd rs1 rs2 (s.setMode m)) := by
  unfold readModifyWrite
  rw [translate_setMode, State.setMode_reg, State.setMode_reg]
  split
  · cases translate s (s.reg rs1) .store with
    | error e => exact sameButMode_raise e
    | ok pa =>
      dsimp only
      rw [busLoad_setMode]
      cases busLoad s pa n .store with
      | error e => exact sameButMode_raise e
      | ok r =>
        dsimp only [Except.map]
        rw [busStore_setMode]
        cases busStore r.2 pa n (op r.1 (s.reg rs2)) .store with
        | error e => exact sameButMode_raise e
        | ok t => exact sameButMode_setReg t _
  · exact sameButMode_raise _

theorem csrWrite_setMode (s : State) (m : Mode) (a : CsrNum) (v : Word) :
    (s.setMode m).csrWrite a v = (s.csrWrite a v).setMode m := by
  unfold State.csrWrite
  split
  · rfl
  · split <;> rfl

theorem readModifyCsr_sameButMode (a : CsrNum) (new : Word → Word) :
    SameButMode s m (readModifyCsr rd a new s) (readModifyCsr rd a new (s.setMode m)) := by
  have hread : (s.setMode m).csrRead a = s.csrRead a := rfl
  unfold readModifyCsr
  rw [hread, csrWrite_setMode]
  exact sameButMode_setReg _ _

end Mode

/-- An instruction that is no ECALL and no trap return does the same in every mode. -/
theorem exec_sameButMode {i : Instr} (he : isEcall i = false) (hr : isTrapReturn i = false) (s : State) (m : Mode) :
    SameButMode s m (exec i s) (exec i (s.setMode m)) := by
  cases i
  case ecall => cases he
  case sret | mret => cases hr
  case jal | jalr => exact jumpAndLink_sameButMode _
  case beq | bne | blt | bge | bltu | bgeu => exact branchIf_sameButMode _ _
  case lb | lh | lw | ld | lbu | lhu | lwu => exact loadInto_sameButMode _ _
  case sb | sh | sw | sd => exact storeFrom_sameButMode _
  case fence | fenceI | wfi | sfenceVma => exact sameButMode_next s
  case ebreak => exact sameButMode_raise _
  case csrrw | csrrs | csrrc | csrrwi | csrrsi | csrrci =>
    simp only [exec, execCsrrw, execCsrrs, execCsrrc, execCsrrwi, execCsrrsi, execCsrrci, State.setMode_reg]
    exact readModifyCsr_sameButMode _ _
  case lrW | lrD => exact loadReserved_sameButMode
  case scW | scD => exact storeConditional_sameButMode
  case amoswapW | amoaddW | amoxorW | amoandW | amoorW | amominW | amomaxW | amominuW | amomaxuW
      | amoswapD | amoaddD | amoxorD | amoandD | amoorD | amominD | amomaxD | amominuD | amomaxuD =>
    exact readModifyWrite_sameButMode _
  -- the other forms write one register with a value that does not depend on the mode
  all_goals exact writeResult_sameButMode _

/-- A trap return overwrites the mode. -/
theorem exec_trapReturn_setMode {i : Instr} (h : isTrapReturn i = true) (s : State) (m : Mode) :
    exec i (s.setMode m) = exec i s := by
  cases i
  case sret | mret => rfl
  all_goals cases h

/-- Settles O16: fetch and the templates do not look at the mode, and a trap return overwrites it. -/
theorem modeIsNotLookedAt : Obligations.ModeIsNotLookedAt := by
  unfold Obligations.ModeIsNotLookedAt
  exact fun i s m => ⟨fetch_setMode s m, fun h => exec_trapReturn_setMode h s m, fun he hr => exec_sameButMode he hr s m⟩

end Sys2Proof.Machine
end

section
/-! The block device's transfer (60_exceptions.md R542 to R547): the eight reads of a request, the copy byte by byte, and
how a disk access ends. -/

namespace Sys2Proof.Machine

open Sys2Proof.Safety

/-! ## The reads of a request -/

/-- A read gives one value. -/
theorem reads_unique {s : State} {a x y : Word} {n : Width} (hx : Reads s a n x) (hy : Reads s a n y) : x = y := by
  obtain ⟨s1, hx⟩ := hx
  obtain ⟨s2, hy⟩ := hy
  rw [hx] at hy
  injection hy with hy
  exact congrArg Prod.fst hy

/-- A read that the bus refuses gives none. -/
theorem not_reads_of_refused {s : State} {a x : Word} {n : Width} {e : Exc} (h : busLoad s a n .load = .error e) :
    ¬Reads s a n x := by
  rintro ⟨s', hx⟩
  rw [h] at hx
  cases hx

/-- A DMA read of two bytes or more changes nothing. -/
theorem dmaLoad_of_reads {s : State} {a x : Word} {n : Width} (hn : n ≠ .byte) (h : Reads s a n x) :
    dmaLoad s a n = .ok (x, s) := by
  obtain ⟨s', hx⟩ := h
  obtain rfl := busLoad_wide hx hn
  simp only [dmaLoad, hx]

theorem descTable_eq (s : State) : s.virtio.descTable = descriptors s := rfl

theorem indexAddress_eq (d : Word) : d + 0x80 + 2 = d + 0x82 := BitVec.add_assoc d 0x80 2

theorem entryAddress_base_eq (d : Word) : d + 0x80 + 4 = d + 0x84 := BitVec.add_assoc d 0x80 4

/-- The values of the eight reads of a request. -/
structure RequestWords where
  idx    : Word
  head   : Word
  hdr    : Word
  nxt    : Word
  buf    : Word
  len    : Word
  flags  : Word
  sector : Word

/-- The request that the values make (R542). -/
def RequestWords.request (w : RequestWords) : DiskRequest where
  buf    := w.buf
  len    := w.len.toNat
  toDisk := !w.flags.getLsbD 1
  sector := w.sector.toNat

/-- Each value is read at the address that the values before it give (R542, R543). -/
structure RequestValues (s : State) (w : RequestWords) : Prop where
  idx    : Reads s (descriptors s + 0x82) .half w.idx
  head   : Reads s (descriptors s + 0x84 + BitVec.ofNat 64 (2 * ((w.idx.toNat + 7) % 8))) .half w.head
  hdr    : Reads s (descriptors s + 16 * w.head) .double w.hdr
  nxt    : Reads s (descriptors s + 16 * w.head + 14) .half w.nxt
  buf    : Reads s (descriptors s + 16 * w.nxt) .double w.buf
  len    : Reads s (descriptors s + 16 * w.nxt + 8) .word w.len
  flags  : Reads s (descriptors s + 16 * w.nxt + 12) .half w.flags
  sector : Reads s (w.hdr + 8) .double w.sector

section Request

variable {s : State} {w : RequestWords}

theorem readRequest_of_values (h : RequestValues s w) : readRequest s = .ok (w.request, s) := by
  have hhalf {a x : Word} (hr : Reads s a .half x) := dmaLoad_of_reads (by decide) hr
  have hdouble {a x : Word} (hr : Reads s a .double x) := dmaLoad_of_reads (by decide) hr
  simp only [readRequest, bind, Except.bind, pure, Except.pure, descTable_eq, indexAddress_eq, entryAddress_base_eq,
    hhalf h.idx, hhalf h.head, hdouble h.hdr, hhalf h.nxt, hdouble h.buf, dmaLoad_of_reads (n := .word) (by decide) h.len,
    hhalf h.flags, hdouble h.sector, RequestWords.request]

/-- A request is read with the values of its reads, or it is the bus fault. -/
theorem readRequest_error_or_values (s : State) :
    readRequest s = .error (.virtioBus s) ∨ ∃ w, RequestValues s w := by
  refine (readRequest_cases s).imp_right ?_
  rintro ⟨idx, head, hdr, nxt, buf, len, flags, sector, h1, h2, h3, h4, h5, h6, h7, h8, -⟩
  rw [descTable_eq] at h1 h2 h3 h4 h5 h6 h7
  rw [indexAddress_eq] at h1
  rw [entryAddress_base_eq] at h2
  exact ⟨⟨idx, head, hdr, nxt, buf, len, flags, sector⟩,
    ⟨⟨s, h1⟩, ⟨s, h2⟩, ⟨s, h3⟩, ⟨s, h4⟩, ⟨s, h5⟩, ⟨s, h6⟩, ⟨s, h7⟩, ⟨s, h8⟩⟩⟩

theorem requestHead_unique (h : RequestValues s w) {a : Word} (ha : RequestHead s a) :
    a = w.head := by
  obtain ⟨i, hi, ha⟩ := ha
  obtain rfl := reads_unique hi h.idx
  exact reads_unique ha h.head

/-- Where a request has its values, each of its reads gives one. -/
theorem reads_of_requestRead (h : RequestValues s w) {a : Word} {n : Width}
    (hr : RequestRead s a n) : ∃ x, Reads s a n x := by
  cases hr with
  | index => exact ⟨_, h.idx⟩
  | entry hi =>
    obtain rfl := reads_unique hi h.idx
    exact ⟨_, h.head⟩
  | headerAddress hh =>
    obtain rfl := requestHead_unique h hh
    exact ⟨_, h.hdr⟩
  | next hh =>
    obtain rfl := requestHead_unique h hh
    exact ⟨_, h.nxt⟩
  | buffer hh hd =>
    obtain rfl := requestHead_unique h hh
    obtain rfl := reads_unique hd h.nxt
    exact ⟨_, h.buf⟩
  | length hh hd =>
    obtain rfl := requestHead_unique h hh
    obtain rfl := reads_unique hd h.nxt
    exact ⟨_, h.len⟩
  | flags hh hd =>
    obtain rfl := requestHead_unique h hh
    obtain rfl := reads_unique hd h.nxt
    exact ⟨_, h.flags⟩
  | sector hh ha =>
    obtain rfl := requestHead_unique h hh
    obtain rfl := reads_unique ha h.hdr
    exact ⟨_, h.sector⟩

end Request

/-- Where every read of a request gives a value, the request has its values. -/
theorem requestValues_of_reads {s : State} (h : ∀ a n, RequestRead s a n → ∃ x, Reads s a n x) :
    ∃ w, RequestValues s w := by
  obtain ⟨idx, hidx⟩ := h _ _ .index
  obtain ⟨head, hhead⟩ := h _ _ (.entry hidx)
  have hh : RequestHead s head := ⟨idx, hidx, hhead⟩
  obtain ⟨hdr, hhdr⟩ := h _ _ (.headerAddress hh)
  obtain ⟨nxt, hnxt⟩ := h _ _ (.next hh)
  obtain ⟨buf, hbuf⟩ := h _ _ (.buffer hh hnxt)
  obtain ⟨len, hlen⟩ := h _ _ (.length hh hnxt)
  obtain ⟨flags, hflags⟩ := h _ _ (.flags hh hnxt)
  obtain ⟨sector, hsector⟩ := h _ _ (.sector hh hhdr)
  exact ⟨⟨idx, head, hdr, nxt, buf, len, flags, sector⟩, hidx, hhead, hhdr, hnxt, hbuf, hlen, hflags, hsector⟩

/-! ## A request in DRAM -/

/-- A read inside DRAM, at an address given as a number. -/
theorem reads_of_inDram {s : State} (hc : s.cfg.admissible = true) {a : Word} {q : Nat} (ha : a.toNat = q) {n : Width}
    (h : InDram s q n.bytes) : ∃ x, Reads s a n x ∧ x.toNat = littleEndian s q n.bytes := by
  subst ha
  obtain ⟨hbase, hend⟩ := h
  exact ⟨_, ⟨s, busLoad_dram hc hbase hend .load⟩, readLE_toNat_eq s a.toNat n⟩

/-- Part of a range in DRAM lies in DRAM. -/
theorem inDram_mono {s : State} {a n b k : Nat} (h : InDram s a n) (hb : a ≤ b) (hk : b + k ≤ a + n) : InDram s b k := by
  obtain ⟨hbase, hend⟩ := h
  exact ⟨hbase.trans hb, hk.trans hend⟩

/-- A field of a descriptor in DRAM, at offset `k`: its address does not wrap. -/
theorem reads_field_of_inDram {s : State} (hc : s.cfg.admissible = true) {a : Word} {q : Nat} (ha : a.toNat = q)
    (h : InDram s q 16) (k : Nat) {n : Width} (hk : k + n.bytes ≤ 16) :
    ∃ x, Reads s (a + BitVec.ofNat 64 k) n x ∧ x.toNat = littleEndian s (q + k) n.bytes := by
  have hend := h.2.trans (Config.dram_le_of_admissible hc)
  have hn := n.bytes_pos
  refine reads_of_inDram hc ?_ (inDram_mono h (Nat.le_add_right q k) (by omega))
  rw [BitVec.toNat_add, BitVec.toNat_ofNat, ha]
  omega

theorem not_getLsbD_one_eq (w : Word) : (!w.getLsbD 1) = decide (w.toNat / 2 % 2 = 0) := by
  rw [Bool.eq_iff_iff, Bool.not_eq_true', ← bit_eq_zero_iff, decide_eq_true_iff]
  rfl

/-- Settles O54: each read falls in DRAM at the address its predecessors give, so the request has the values named. -/
theorem diskRequestFields : Obligations.DiskRequestFields := by
  unfold Obligations.DiskRequestFields
  intro s desc idxAt idx headAt head d0 hdr d1 hc hdesc hidxAt hidxIn hidx hheadAt hheadIn hhead hd0 hd0In hhdr hd1 hd1In
    hsectorIn
  have hd : (descriptors s).toNat = desc := hdesc.symm
  obtain ⟨i, hi, hiN⟩ := reads_of_inDram hc (a := descriptors s + 0x82) (n := .half)
    (by rw [BitVec.toNat_add, hd, hidxAt]; rfl) hidxIn
  obtain ⟨h, hh, hhN⟩ := reads_of_inDram hc (n := .half)
    (a := descriptors s + 0x84 + BitVec.ofNat 64 (2 * ((i.toNat + 7) % 8)))
    (by simp [BitVec.toNat_add, hd, hheadAt, hidx, hiN, Width.bytes]) hheadIn
  have ha0 : (descriptors s + 16 * h).toNat = d0 := by
    simp [BitVec.toNat_add, BitVec.toNat_mul, hd, hd0, hhead, hhN, Width.bytes]
  obtain ⟨a, ha, haN⟩ := reads_of_inDram hc ha0 (n := .double) (inDram_mono hd0In le_rfl (by simp [Width.bytes]))
  obtain ⟨d, hnxt, hdN⟩ := reads_field_of_inDram hc ha0 hd0In 14 (n := .half) (by decide)
  have ha1 : (descriptors s + 16 * d).toNat = d1 := by
    simp [BitVec.toNat_add, BitVec.toNat_mul, hd, hd1, hdN, Width.bytes]
  obtain ⟨b, hb, hbN⟩ := reads_of_inDram hc ha1 (n := .double) (inDram_mono hd1In le_rfl (by simp [Width.bytes]))
  obtain ⟨l, hl, hlN⟩ := reads_field_of_inDram hc ha1 hd1In 8 (n := .word) (by decide)
  obtain ⟨f, hf, hfN⟩ := reads_field_of_inDram hc ha1 hd1In 12 (n := .half) (by decide)
  obtain ⟨c, hsec, hcN⟩ := reads_of_inDram hc (a := a + 8) (n := .double)
    (by rw [BitVec.toNat_add, haN, hhdr]; rfl) hsectorIn
  rw [readRequest_of_values (w := ⟨i, h, a, d, b, l, f, c⟩) ⟨hi, hh, ha, hnxt, hb, hl, hf, hsec⟩, RequestWords.request]
  simp only [Width.bytes] at hbN hlN hfN hcN
  rw [← hbN, ← hlN, ← hfN, ← hcN, not_getLsbD_one_eq, BitVec.ofNat_toNat, BitVec.setWidth_eq]

/-! ## The copy -/

section Copy

variable {s : State} (hc : s.cfg.admissible = true) {b : Nat}
include hc

theorem toNat_ofNat_of_inDram (h : InDram s b 1) : (BitVec.ofNat 64 b).toNat = b := by
  have := h.2.trans (Config.dram_le_of_admissible hc)
  exact Nat.mod_eq_of_lt (by omega)

/-- One byte from the disk to a byte of DRAM. -/
theorem copyByte_fromDisk (h : InDram s b 1) (off : Nat) :
    copyByte false (BitVec.ofNat 64 b) off s = .ok (s.setMem (Memory.write s.mem b (Memory.read s.disk off))) := by
  have hb := toNat_ofNat_of_inDram hc h
  have hstore := busStore_dram (pa := BitVec.ofNat 64 b) (v := (Memory.read s.disk off).setWidth 64) (n := .byte) hc
    (by rw [hb]; exact h.1) (by rw [hb]; exact h.2) .store
  rw [hb] at hstore
  simp [copyByte, dmaStore, hstore, Memory.writeLE, Width.bytes]

/-- One byte of DRAM to the disk. -/
theorem copyByte_toDisk (h : InDram s b 1) (off : Nat) :
    copyByte true (BitVec.ofNat 64 b) off s = .ok (s.setDisk (Memory.write s.disk off (s.byte b))) := by
  have hb := toNat_ofNat_of_inDram hc h
  have hload := busLoad_dram (pa := BitVec.ofNat 64 b) (n := .byte) hc (by rw [hb]; exact h.1) (by rw [hb]; exact h.2)
    .load
  rw [hb] at hload
  simp [copyByte, dmaLoad, hload, Memory.readLE, Width.bytes, State.byte]

end Copy

theorem ofNat_succ (b : Nat) : BitVec.ofNat 64 b + 1 = BitVec.ofNat 64 (b + 1) := by
  rw [BitVec.ofNat_add]; rfl

/-- The bytes of a copied range: the first byte, and the range after it. -/
theorem copied_succ (f : Nat → Byte) (x : Byte) (b off n a : Nat) :
    (if b + 1 ≤ a ∧ a < b + 1 + n then f (off + 1 + (a - (b + 1))) else if a = b then f off else x) =
      if b ≤ a ∧ a < b + (n + 1) then f (off + (a - b)) else x := by
  obtain h | rfl | h := Nat.lt_trichotomy a b
  · rw [if_neg (by omega), if_neg (by omega), if_neg (by omega)]
  · rw [if_neg (by omega), if_pos rfl, if_pos (by omega), Nat.sub_self, Nat.add_zero]
  · by_cases hn : a < b + (n + 1)
    · rw [if_pos (by omega), if_pos (by omega)]
      congr 1
      omega
    · rw [if_neg (by omega), if_neg (by omega), if_neg (by omega)]

/-- A copy from the disk to a range of DRAM writes that range. The address is a number, so that it does not wrap after the
last byte. -/
theorem copyBytes_fromDisk {s : State} (hc : s.cfg.admissible = true) {b off len : Nat} (h : InDram s b len) :
    ∃ m, copyBytes false (BitVec.ofNat 64 b) off len s = .ok (s.setMem m) ∧
      ∀ a, Memory.read m a = if b ≤ a ∧ a < b + len then Memory.read s.disk (off + (a - b)) else s.byte a := by
  induction len generalizing s b off with
  | zero => exact ⟨s.mem, rfl, fun a => (if_neg (by omega)).symm⟩
  | succ n ih =>
    have hfirst : InDram s b 1 := inDram_mono h le_rfl (by omega)
    have hrest : InDram s (b + 1) n := inDram_mono h (by omega) (by omega)
    obtain ⟨m, hm, hread⟩ := ih (s := s.setMem (Memory.write s.mem b (Memory.read s.disk off))) (off := off + 1) hc hrest
    refine ⟨m, ?_, fun a => ?_⟩
    · simp only [copyBytes, copyByte_fromDisk hc hfirst, ofNat_succ, hm]
      rfl
    · rw [hread, State.byte_setMem, Memory.read_write, State.setMem_disk]
      exact copied_succ _ _ b off n a

/-- A copy of a range of DRAM to the disk writes the disk's range. -/
theorem copyBytes_toDisk {s : State} (hc : s.cfg.admissible = true) {b off len : Nat} (h : InDram s b len) :
    ∃ d, copyBytes true (BitVec.ofNat 64 b) off len s = .ok (s.setDisk d) ∧
      ∀ k, Memory.read d k = if off ≤ k ∧ k < off + len then s.byte (b + (k - off)) else Memory.read s.disk k := by
  induction len generalizing s b off with
  | zero => exact ⟨s.disk, rfl, fun k => (if_neg (by omega)).symm⟩
  | succ n ih =>
    have hfirst : InDram s b 1 := inDram_mono h le_rfl (by omega)
    have hrest : InDram s (b + 1) n := inDram_mono h (by omega) (by omega)
    obtain ⟨d, hd, hread⟩ := ih (s := s.setDisk (Memory.write s.disk off (s.byte b))) (off := off + 1) hc hrest
    refine ⟨d, ?_, fun k => ?_⟩
    · simp only [copyBytes, copyByte_toDisk hc hfirst, ofNat_succ, hd]
      rfl
    · rw [hread, State.setDisk_byte, State.setDisk_disk, Memory.read_write]
      exact copied_succ s.byte _ off b n k

/-- Settles O55: byte by byte, a copy from the disk is one write of DRAM and a copy to the disk one of the disk. -/
theorem diskCopies : Obligations.DiskCopies := by
  unfold Obligations.DiskCopies
  intro s buf off len hc h
  obtain ⟨m, hm, hmem⟩ := copyBytes_fromDisk hc (off := off) h
  obtain ⟨d, hd, hdisk⟩ := copyBytes_toDisk hc (off := off) h
  rw [BitVec.ofNat_toNat, BitVec.setWidth_eq] at hm hd
  exact ⟨⟨_, hm, hmem, rfl, sameRegs_setMem s m, rfl, rfl, sameSystem_setMem s m, sameDevices_setMem s m⟩,
    _, hd, hdisk, rfl⟩

/-! ## The outcome -/

theorem copyByte_error_bus {toDisk : Bool} {buf : Word} {off : Nat} {s : State} {f : Fault}
    (h : copyByte toDisk buf off s = .error f) : f = .virtioBus s := by
  unfold copyByte at h
  split at h
  · split at h
    · next hv => cases h; exact dmaLoad_error hv
    · cases h
  · exact dmaStore_error h

/-- A copy fails only with the bus fault. -/
theorem copyBytes_error_bus {toDisk : Bool} {buf : Word} {off len : Nat} {s : State} {f : Fault}
    (h : copyBytes toDisk buf off len s = .error f) : ∃ stopped, f = .virtioBus stopped := by
  induction len generalizing buf off s with
  | zero => cases h
  | succ n ih =>
    unfold copyBytes at h
    split at h
    · next hb => cases h; exact ⟨s, copyByte_error_bus hb⟩
    · exact ih h

theorem usedRing_eq {w : Virtio} {used : Word}
    (h : used.toNat = (w.queuePfn.toNat * w.guestPageSize.toNat + w.guestPageSize.toNat) % 2 ^ 64) :
    w.usedRing = used := by
  refine BitVec.eq_of_toNat_eq ?_
  rw [h]
  simp [Virtio.usedRing, Virtio.descTable, BitVec.toNat_add]

/-- The state that a completion writes `used.idx` in: the id counter has gone up by one (R544). -/
def State.countRequest (s : State) : State := s.setVirtio { s.virtio with vioId := s.virtio.vioId + 1 }

/-- A completion is the write of the new counter modulo 8. -/
theorem completeRequest_eq (used : Word) (s : State) :
    completeRequest used s =
      dmaStore s.countRequest (used + 2) .half (BitVec.ofNat 64 ((s.virtio.vioId.toNat + 1) % 8)) := by
  have hcount : (s.virtio.vioId + 1).toNat % 8 = (s.virtio.vioId.toNat + 1) % 8 := by
    rw [BitVec.toNat_add]; simp
  rw [← hcount]
  rfl

section Outcome

variable {s : State} {r : DiskRequest} (hread : readRequest s = .ok (r, s))
include hread

theorem diskAccess_of_range (h : s.cfg.diskSize < r.sector * 512 + r.len) : diskAccess s = .error (.virtioRange s) := by
  simp only [diskAccess, hread, transfer, h, if_true]

variable (h : r.sector * 512 + r.len ≤ s.cfg.diskSize)
include h

theorem diskAccess_of_copy_error {f : Fault} (hcopy : copyBytes r.toDisk r.buf (r.sector * 512) r.len s = .error f) :
    diskAccess s = .error f := by
  simp only [diskAccess, hread, transfer, Nat.not_lt.2 h, if_false, hcopy]

theorem diskAccess_of_copied {t : State} (hcopy : copyBytes r.toDisk r.buf (r.sector * 512) r.len s = .ok t) :
    diskAccess s = completeRequest s.virtio.usedRing t := by
  simp only [diskAccess, hread, transfer, Nat.not_lt.2 h, if_false, hcopy]

end Outcome

theorem diskAccess_of_readRequest_error {s : State} {f : Fault} (h : readRequest s = .error f) :
    diskAccess s = .error f := by
  simp only [diskAccess, h]

/-- Settles O56: a refused read leaves the request without its values; else the range check, the copy and the completion
follow one another. -/
theorem diskAccessOutcome : Obligations.DiskAccessOutcome := by
  unfold Obligations.DiskAccessOutcome
  refine ⟨fun s a n e hr hb => ?refused, fun s h => ?readable, fun s r used hread hused => ?outcome⟩
  case refused =>
    obtain herror | ⟨w, hw⟩ := readRequest_error_or_values s
    · exact diskAccess_of_readRequest_error herror
    · obtain ⟨x, hx⟩ := reads_of_requestRead hw hr
      exact absurd hx (not_reads_of_refused hb)
  case readable =>
    obtain ⟨w, hw⟩ := requestValues_of_reads h
    exact ⟨_, readRequest_of_values hw⟩
  case outcome =>
    refine ⟨diskAccess_of_range hread, fun hin => ⟨fun f hcopy =>
      ⟨diskAccess_of_copy_error hread hin hcopy, copyBytes_error_bus hcopy⟩, fun t1 hcopy => ?_⟩⟩
    rw [diskAccess_of_copied hread hin hcopy, usedRing_eq hused, completeRequest_eq, dmaStore]
    exact ⟨fun t ht => by simp only [State.countRequest, ht], fun e he => by simp only [State.countRequest, he]⟩

end Sys2Proof.Machine
end
